-- ==== Sys2Proof/Word.lean ====
section
/-! DEFINITION. The bit-vector types of the core (spec/00_scope.md R8): a byte of the 8-bit bus, a 16-bit waveform
word or volume, a 32-bit register value, and a voice index 0..31 (R33). -/

namespace Sys2Proof

/-- A byte of the 8-bit bus, or of a call frame. -/
abbrev Byte := BitVec 8

/-- A u16: a waveform word, a volume, a filter coefficient, the control register. -/
abbrev Hword := BitVec 16

/-- A u32: a register value on the canonical interface, an address in accumulator format, or the pattern of an i32. -/
abbrev Word := BitVec 32

/-- The index of one of the 32 voices (R33). -/
abbrev VoiceIx := BitVec 5

end Sys2Proof
end

