-- ==== Sys2Proof/Config.lean ====
section
/-! DEFINITION. What one core is built with: the parameters of spec/00_scope.md R5, which CONSTRUCT takes (R105), and
the free values, which nothing in the spec fixes: a waveform word beyond its region's extent (R71), a value of the
host's port (R62, R284), and the result of an overflowing filter call under FILTER_OVERFLOW = draw (R160). -/

namespace Sys2Proof

/-- The two variants of the core (R2). -/
inductive Variant where
  /-- 8-bit bus, accumulator mask 0xFFFFFFFF. -/
  | es5506
  /-- 16-bit bus, accumulator mask 0x7FFFFFFF. -/
  | es5505
deriving DecidableEq, Repr

/-- `ACCUM_MASK`, which the variant selects (R2, R23; the pairing is the spec's decision D28). -/
def Variant.accumMask : Variant → Word
  | .es5506 => 0xFFFFFFFF
  | .es5505 => 0x7FFFFFFF

/-- One present waveform region (R71): its extent `LEN` in 16-bit words, and its bytes below that extent. Word `a` is
the bytes at addresses `2*a` (bits 15:8) and `2*a + 1` (bits 7:0); an unlisted byte below the extent is 0
(DESIGN CHOICE, log 9). The core only reads it (R11). -/
structure Memory where
  /-- `LEN[r]`: how many words the host supplied. No rule of the core tests an address against it. -/
  len : Nat
  /-- The nonzero bytes, addresses strictly rising. -/
  cells : List Host.Cell
deriving DecidableEq, Repr

/-- The volume table `VOL[0..4095]` (R142): the spec's default formula, or 4096 entries the host supplies. -/
inductive VolumeLookup where
  | standard
  | custom (table : List Hword)
deriving DecidableEq, Repr

/-- Which half of a 32-bit register a 16-bit bus offset reaches (R101). -/
inductive RegHalf where
  /-- Bits 31:16. -/
  | hi
  /-- Bits 15:0. -/
  | lo
deriving DecidableEq, Repr

/-- One line of `BUS16_MAP` (R101): an offset, the register number it reaches and which half of it. The spec gives an
offset no width and no range: that it is any natural number, matched exactly and not modulo some number, is the model's
(DESIGN CHOICE, unsafe, log 15). -/
structure BusLine where
  off : Nat
  reg : BitVec 4
  half : RegHalf
deriving DecidableEq, Repr

/-- `FILTER_OVERFLOW` (R5, R160). -/
inductive FilterOverflow where
  | wrap
  | draw
deriving DecidableEq, Repr

/-- The parameters of R5. None of them changes during a run; only CONSTRUCT sets them (R105). -/
structure Params where
  variant : Variant
  masterClockHz : Word
  region0 : Option Memory
  region1 : Option Memory
  region2 : Option Memory
  region3 : Option Memory
  /-- Whether the host supplies the `PORT_READ` callback. -/
  portRead : Bool
  volumeLookup : VolumeLookup
  ulawBias : Hword
  fcMask : Word
  startMask : Word
  endMask : Word
  /-- The partial map `BUS16_MAP` (R101), a finite list, offsets strictly rising (DESIGN CHOICE, log 4 and log 15). -/
  bus16Map : List BusLine
  filterOverflow : FilterOverflow
deriving DecidableEq, Repr

/-- The parameters that stand at reset: every default R5 gives, and for what R5 calls host-chosen, absent or open, the
choice of log 4 (DESIGN CHOICE): an ES5506 clocked at 16 MHz with no region, no port and an empty 16-bit map. -/
def Params.standard : Params where
  variant := .es5506
  masterClockHz := 16000000
  region0 := none
  region1 := none
  region2 := none
  region3 := none
  portRead := false
  volumeLookup := .standard
  ulawBias := 0x1000
  fcMask := 0x0001FFFF
  startMask := 0xFFFFF800
  endMask := 0xFFFFFF80
  bus16Map := []
  filterOverflow := .wrap

/-- Free value: the word at an address at or beyond a present region's extent (R71), fixed per address for a run. The
first argument numbers the chip constructed (log 6), the second is the region, the third the word address. -/
opaque Config.beyondExtent : Nat → BitVec 2 → Nat → Hword

/-- Free value: what the n-th call of `PORT_READ` returns (R62, R284; log 7). -/
opaque Config.portValue : Nat → Hword

/-- Free value: the n-th i32 drawn for an overflowing filter call under `FILTER_OVERFLOW = draw` (R160; log 8). -/
opaque Config.filterDraw : Nat → Word

end Sys2Proof
end

