-- ==== Sys2Proof/Syntax.lean ====
section
/-! DEFINITION. The operations of spec/opcode_table.json, one constructor per row. A `REG` row is a canonical register
operation already decoded: the key {W, G, reg} of R91, with G read from `currentPage` when the operation executes
(R92). A row of the test group stands for several keys: `g` is key bit 4, which the row leaves free, and `r` the low
bits of the register number inside the row's range (R113). `d` is the 32-bit data word of a write. -/

namespace Sys2Proof

/-- One host operation (R90). -/
inductive Instr where
  /-- `WR.L.CR` (R242). -/
  | wrLCr (d : Word)
  /-- `WR.L.FC` (R243). -/
  | wrLFc (d : Word)
  /-- `WR.L.LVOL` (R244). -/
  | wrLLvol (d : Word)
  /-- `WR.L.LVRAMP` (R245). -/
  | wrLLvramp (d : Word)
  /-- `WR.L.RVOL` (R246). -/
  | wrLRvol (d : Word)
  /-- `WR.L.RVRAMP` (R247). -/
  | wrLRvramp (d : Word)
  /-- `WR.L.ECOUNT` (R248). -/
  | wrLEcount (d : Word)
  /-- `WR.L.K2` (R249). -/
  | wrLK2 (d : Word)
  /-- `WR.L.K2RAMP` (R250). -/
  | wrLK2ramp (d : Word)
  /-- `WR.L.K1` (R251). -/
  | wrLK1 (d : Word)
  /-- `WR.L.K1RAMP` (R252). -/
  | wrLK1ramp (d : Word)
  /-- `WR.L.ACTV` (R253). -/
  | wrLActv (d : Word)
  /-- `WR.L.MODE` (R254). -/
  | wrLMode (d : Word)
  /-- `WR.L.PAR` (R255). -/
  | wrLPar (d : Word)
  /-- `WR.L.IRQV` (R256). -/
  | wrLIrqv (d : Word)
  /-- `WR.L.PAGE` (R257). -/
  | wrLPage (d : Word)
  /-- `WR.H.CR` (R242). -/
  | wrHCr (d : Word)
  /-- `WR.H.START` (R258). -/
  | wrHStart (d : Word)
  /-- `WR.H.END` (R259). -/
  | wrHEnd (d : Word)
  /-- `WR.H.ACCUM` (R260). -/
  | wrHAccum (d : Word)
  /-- `WR.H.O4N1` (R261). -/
  | wrHO4n1 (d : Word)
  /-- `WR.H.O3N1` (R262). -/
  | wrHO3n1 (d : Word)
  /-- `WR.H.O3N2` (R263). -/
  | wrHO3n2 (d : Word)
  /-- `WR.H.O2N1` (R264). -/
  | wrHO2n1 (d : Word)
  /-- `WR.H.O2N2` (R265). -/
  | wrHO2n2 (d : Word)
  /-- `WR.H.O1N1` (R266). -/
  | wrHO1n1 (d : Word)
  /-- `WR.H.W_ST` (R267). -/
  | wrHWSt (d : Word)
  /-- `WR.H.W_END` (R268). -/
  | wrHWEnd (d : Word)
  /-- `WR.H.LR_END` (R269). -/
  | wrHLrEnd (d : Word)
  /-- `WR.H.PAR` (R255). -/
  | wrHPar (d : Word)
  /-- `WR.H.IRQV` (R256). -/
  | wrHIrqv (d : Word)
  /-- `WR.H.PAGE` (R257). -/
  | wrHPage (d : Word)
  /-- `RD.L.CR` (R271). -/
  | rdLCr
  /-- `RD.L.FC` (R272). -/
  | rdLFc
  /-- `RD.L.LVOL` (R273). -/
  | rdLLvol
  /-- `RD.L.LVRAMP` (R274). -/
  | rdLLvramp
  /-- `RD.L.RVOL` (R275). -/
  | rdLRvol
  /-- `RD.L.RVRAMP` (R276). -/
  | rdLRvramp
  /-- `RD.L.ECOUNT` (R277). -/
  | rdLEcount
  /-- `RD.L.K2` (R278). -/
  | rdLK2
  /-- `RD.L.K2RAMP` (R279). -/
  | rdLK2ramp
  /-- `RD.L.K1` (R280). -/
  | rdLK1
  /-- `RD.L.K1RAMP` (R281). -/
  | rdLK1ramp
  /-- `RD.L.ACTV` (R282). -/
  | rdLActv
  /-- `RD.L.MODE` (R283). -/
  | rdLMode
  /-- `RD.L.PAR` (R284). -/
  | rdLPar
  /-- `RD.L.IRQV` (R285). -/
  | rdLIrqv
  /-- `RD.L.PAGE` (R286). -/
  | rdLPage
  /-- `RD.H.CR` (R271). -/
  | rdHCr
  /-- `RD.H.START` (R287). -/
  | rdHStart
  /-- `RD.H.END` (R288). -/
  | rdHEnd
  /-- `RD.H.ACCUM` (R289). -/
  | rdHAccum
  /-- `RD.H.O4N1` (R290). -/
  | rdHO4n1
  /-- `RD.H.O3N1` (R291). -/
  | rdHO3n1
  /-- `RD.H.O3N2` (R292). -/
  | rdHO3n2
  /-- `RD.H.O2N1` (R293). -/
  | rdHO2n1
  /-- `RD.H.O2N2` (R294). -/
  | rdHO2n2
  /-- `RD.H.O1N1` (R295). -/
  | rdHO1n1
  /-- `RD.H.W_ST` (R296). -/
  | rdHWSt
  /-- `RD.H.W_END` (R297). -/
  | rdHWEnd
  /-- `RD.H.LR_END` (R298). -/
  | rdHLrEnd
  /-- `RD.H.PAR` (R284). -/
  | rdHPar
  /-- `RD.H.IRQV` (R285). -/
  | rdHIrqv
  /-- `RD.H.PAGE` (R286). -/
  | rdHPage
  /-- `WR.T.RSV0` (R270). -/
  | wrTRsv0 (g : BitVec 1) (r : BitVec 3) (d : Word)
  /-- `WR.T.RSV8` (R270). -/
  | wrTRsv8 (g : BitVec 1) (r : BitVec 2) (d : Word)
  /-- `WR.T.RSVC` (R270). -/
  | wrTRsvC (g : BitVec 1) (r : BitVec 1) (d : Word)
  /-- `WR.T.IRQV` (R270). -/
  | wrTIrqv (g : BitVec 1) (d : Word)
  /-- `WR.T.PAGE` (R257). -/
  | wrTPage (g : BitVec 1) (d : Word)
  /-- `RD.T.RSV0` (R299). -/
  | rdTRsv0 (g : BitVec 1) (r : BitVec 3)
  /-- `RD.T.RSV8` (R299). -/
  | rdTRsv8 (g : BitVec 1) (r : BitVec 2)
  /-- `RD.T.RSVC` (R299). -/
  | rdTRsvC (g : BitVec 1) (r : BitVec 1)
  /-- `RD.T.IRQV` (R285). -/
  | rdTIrqv (g : BitVec 1)
  /-- `RD.T.PAGE` (R286). -/
  | rdTPage (g : BitVec 1)
  /-- `GENERATE` (R220). -/
  | generate (n : Nat)
  /-- `BANK_W` (R304). -/
  | bankW (voice : Nat) (value : Word)
  /-- `BUS8_WB` (R300). -/
  | bus8Wb (a : Nat) (b : Byte)
  /-- `BUS8_RB` (R301). -/
  | bus8Rb (a : Nat)
  /-- `BUS16_W` (R302); an offset is any natural number (DESIGN CHOICE, log 15). -/
  | bus16W (off : Nat) (data : Hword) (lanes : BitVec 2)
  /-- `BUS16_R` (R303); an offset is any natural number (DESIGN CHOICE, log 15). -/
  | bus16R (off : Nat)
  /-- `CONSTRUCT` (R350). -/
  | construct (p : Params)
  /-- `CALL.RSV` (R109). -/
  | callRsv
deriving DecidableEq, Repr

end Sys2Proof
end

