-- ==== Sys2Proof/WellFormed.lean ====
section
/-! DEFINITION. When an operation is well formed. Operands of REG and bus operations are bit vectors or natural
numbers, all of whose values the spec admits (R103, R104, R107, R300); only CONSTRUCT's parameters carry checks. -/

namespace Sys2Proof

/-- Strictly rising: each number above the one before it. -/
def rising : List Nat → Bool
  | [] => true
  | [_] => true
  | a :: b :: rest => decide (a < b) && rising (b :: rest)

/-- A region's cells are in canonical form (log 9): addresses strictly rising, each below the extent, and no cell
holding 0, which is what an unlisted byte below the extent reads as. -/
def Memory.wf (m : Memory) : Bool :=
  rising (m.cells.map Prod.fst) && m.cells.all fun c => decide (c.1 < 2 * m.len) && c.2 != 0

/-- A supplied volume table has exactly 4096 entries (R5, R142). -/
def VolumeLookup.wf : VolumeLookup → Bool
  | .standard => true
  | .custom table => table.length == 4096

/-- An absent region is well formed; a present one when its memory is. -/
def regionWf : Option Memory → Bool
  | none => true
  | some m => m.wf

/-- Parameters CONSTRUCT accepts: canonical regions, a volume table of the right size, and a 16-bit map that gives
each offset at most one line (R101 calls it a partial function). -/
def Params.wf (p : Params) : Bool :=
  regionWf p.region0 && regionWf p.region1 && regionWf p.region2 && regionWf p.region3
    && p.volumeLookup.wf && rising (p.bus16Map.map BusLine.off)

/-- A well-formed operation. -/
def Instr.wf : Instr → Bool
  | .construct p => p.wf
  | .wrLCr _ | .wrLFc _ | .wrLLvol _ | .wrLLvramp _ | .wrLRvol _ | .wrLRvramp _ | .wrLEcount _ | .wrLK2 _
  | .wrLK2ramp _ | .wrLK1 _ | .wrLK1ramp _ | .wrLActv _ | .wrLMode _ | .wrLPar _ | .wrLIrqv _ | .wrLPage _
  | .wrHCr _ | .wrHStart _ | .wrHEnd _ | .wrHAccum _ | .wrHO4n1 _ | .wrHO3n1 _ | .wrHO3n2 _ | .wrHO2n1 _
  | .wrHO2n2 _ | .wrHO1n1 _ | .wrHWSt _ | .wrHWEnd _ | .wrHLrEnd _ | .wrHPar _ | .wrHIrqv _ | .wrHPage _
  | .rdLCr | .rdLFc | .rdLLvol | .rdLLvramp | .rdLRvol | .rdLRvramp | .rdLEcount | .rdLK2 | .rdLK2ramp | .rdLK1
  | .rdLK1ramp | .rdLActv | .rdLMode | .rdLPar | .rdLIrqv | .rdLPage | .rdHCr | .rdHStart | .rdHEnd | .rdHAccum
  | .rdHO4n1 | .rdHO3n1 | .rdHO3n2 | .rdHO2n1 | .rdHO2n2 | .rdHO1n1 | .rdHWSt | .rdHWEnd | .rdHLrEnd | .rdHPar
  | .rdHIrqv | .rdHPage | .wrTRsv0 _ _ _ | .wrTRsv8 _ _ _ | .wrTRsvC _ _ _ | .wrTIrqv _ _ | .wrTPage _ _
  | .rdTRsv0 _ _ | .rdTRsv8 _ _ | .rdTRsvC _ _ | .rdTIrqv _ | .rdTPage _ | .generate _ | .bankW _ _
  | .bus8Wb _ _ | .bus8Rb _ | .bus16W _ _ _ | .bus16R _ | .callRsv => true

end Sys2Proof
end

