-- ==== Sys2Proof/Decode.lean ====
section
/-! DEFINITION. Call frames: how one host operation is written as bytes, read and written (spec/30_encoding.md).
The spec gives the keys (R91, R106) and no byte layout for a key with its operands, so the layout is the model's
(DESIGN CHOICE, log 2): the first byte is 0 for a canonical register operation, then its write bit W and register
number (bit 6 and bits 3:0, bits 5:4 zero: G is no operand, R91), or 1 and the CALL code (bit 7 and bits 2:0). The
operands follow: a u16 or u32 most significant byte first (the order of R75), a natural number in groups of 7 bits,
least significant first, bit 7 of a byte saying that another group follows. A frame holds exactly one operation. -/

namespace Sys2Proof

/-- Why a frame is no operation. -/
inductive DecodeError where
  /-- The frame has no byte. -/
  | emptyFrame
  /-- A bit of the first byte that the layout keeps zero is one. -/
  | reservedBits
  /-- The operands end too soon, or hold a value the operation's format does not have. -/
  | badOperands
  /-- Bytes are left over after the operands. -/
  | trailingBytes
deriving DecidableEq, Repr

/-! ## Operands, written -/

def putByte (b : Byte) : List Byte := [b]

/-- Most significant byte first. -/
def putHword (h : Hword) : List Byte := [h.extractLsb' 8 8, h.extractLsb' 0 8]

/-- Most significant byte first (R75). -/
def putWord (w : Word) : List Byte :=
  [w.extractLsb' 24 8, w.extractLsb' 16 8, w.extractLsb' 8 8, w.extractLsb' 0 8]

/-- A natural number in groups of 7 bits; `fuel` bounds how many groups follow the first. -/
def putNatFuel : Nat → Nat → List Byte
  | 0, n => [BitVec.ofNat 8 (n % 128)]
  | fuel + 1, n =>
    if n < 128 then [BitVec.ofNat 8 n]
    else BitVec.ofNat 8 (128 + n % 128) :: putNatFuel fuel (n / 128)

def putNat (n : Nat) : List Byte := putNatFuel n n

def putFlag (b : Bool) : List Byte := [if b then 1 else 0]

/-- A list: how many entries, then the entries. -/
def putList {α : Type} (put : α → List Byte) (xs : List α) : List Byte :=
  putNat xs.length ++ xs.flatMap put

def putCell (c : Host.Cell) : List Byte := putNat c.1 ++ putByte c.2

def putRegion : Option Memory → List Byte
  | none => putFlag false
  | some m => putFlag true ++ putNat m.len ++ putList putCell m.cells

/-- A supplied table is its 4096 entries, with no count before them. -/
def putVolume : VolumeLookup → List Byte
  | .standard => putFlag false
  | .custom table => putFlag true ++ table.flatMap putHword

/-- Offset, then a byte holding the half (bit 4, 1 for bits 31:16) and the register number (bits 3:0). -/
def putLine (l : BusLine) : List Byte :=
  putNat l.off ++ putByte ((0#3 ++ BitVec.ofBool (l.half == .hi)) ++ l.reg)

def putParams (p : Params) : List Byte :=
  putFlag (p.variant == .es5505) ++ putWord p.masterClockHz ++ putRegion p.region0 ++ putRegion p.region1
    ++ putRegion p.region2 ++ putRegion p.region3 ++ putFlag p.portRead ++ putVolume p.volumeLookup
    ++ putHword p.ulawBias ++ putWord p.fcMask ++ putWord p.startMask ++ putWord p.endMask
    ++ putList putLine p.bus16Map ++ putFlag (p.filterOverflow == .draw)

/-! ## Operands, read: each takes its bytes off the front of the list -/

def getByte : List Byte → Option (Byte × List Byte)
  | b :: rest => some (b, rest)
  | _ => none

def getHword : List Byte → Option (Hword × List Byte)
  | a :: b :: rest => some (a ++ b, rest)
  | _ => none

def getWord : List Byte → Option (Word × List Byte)
  | a :: b :: c :: d :: rest => some (a ++ b ++ c ++ d, rest)
  | _ => none

/-- A last group of 0 after another group is refused, so that each number is written in one way. -/
def getNat : List Byte → Option (Nat × List Byte)
  | [] => none
  | b :: rest =>
    if b.toNat < 128 then some (b.toNat, rest)
    else
      match getNat rest with
      | none => none
      | some (0, _) => none
      | some (m + 1, rest') => some (b.toNat - 128 + 128 * (m + 1), rest')

def getFlag : List Byte → Option (Bool × List Byte)
  | b :: rest => if b = 0 then some (false, rest) else if b = 1 then some (true, rest) else none
  | _ => none

/-- Exactly `n` entries, one after another. -/
def getMany {α : Type} (get : List Byte → Option (α × List Byte)) : Nat → List Byte → Option (List α × List Byte)
  | 0, bytes => some ([], bytes)
  | n + 1, bytes => do
    let (x, bytes) ← get bytes
    let (xs, bytes) ← getMany get n bytes
    return (x :: xs, bytes)

def getList {α : Type} (get : List Byte → Option (α × List Byte)) (bytes : List Byte) :
    Option (List α × List Byte) := do
  let (n, bytes) ← getNat bytes
  getMany get n bytes

def getCell (bytes : List Byte) : Option (Host.Cell × List Byte) := do
  let (a, bytes) ← getNat bytes
  let (b, bytes) ← getByte bytes
  return ((a, b), bytes)

def getRegion (bytes : List Byte) : Option (Option Memory × List Byte) := do
  let (present, bytes) ← getFlag bytes
  if present then
    let (len, bytes) ← getNat bytes
    let (cells, bytes) ← getList getCell bytes
    return (some ⟨len, cells⟩, bytes)
  else return (none, bytes)

def getVolume (bytes : List Byte) : Option (VolumeLookup × List Byte) := do
  let (custom, bytes) ← getFlag bytes
  if custom then
    let (table, bytes) ← getMany getHword 4096 bytes
    return (.custom table, bytes)
  else return (.standard, bytes)

def getLine (bytes : List Byte) : Option (BusLine × List Byte) := do
  let (off, bytes) ← getNat bytes
  let (b, bytes) ← getByte bytes
  if b.extractLsb' 5 3 = 0 then
    return (⟨off, b.extractLsb' 0 4, if b.getLsbD 4 then .hi else .lo⟩, bytes)
  else none

def getParams (bytes : List Byte) : Option (Params × List Byte) := do
  let (es5505, bytes) ← getFlag bytes
  let (clock, bytes) ← getWord bytes
  let (r0, bytes) ← getRegion bytes
  let (r1, bytes) ← getRegion bytes
  let (r2, bytes) ← getRegion bytes
  let (r3, bytes) ← getRegion bytes
  let (port, bytes) ← getFlag bytes
  let (volume, bytes) ← getVolume bytes
  let (bias, bytes) ← getHword bytes
  let (fc, bytes) ← getWord bytes
  let (start, bytes) ← getWord bytes
  let (stop, bytes) ← getWord bytes
  let (map, bytes) ← getList getLine bytes
  let (draw, bytes) ← getFlag bytes
  let p : Params :=
    ⟨if es5505 then .es5505 else .es5506, clock, r0, r1, r2, r3, port, volume, bias, fc, start, stop, map,
      if draw then .draw else .wrap⟩
  if p.wf then return (p, bytes) else none

/-! ## Register operations: the key {W, G, reg} of R91 -/

/-- The low group's writes in the order of their register numbers (R93, R240). -/
def lowWrites : List (Word → Instr) :=
  [.wrLCr, .wrLFc, .wrLLvol, .wrLLvramp, .wrLRvol, .wrLRvramp, .wrLEcount, .wrLK2, .wrLK2ramp, .wrLK1,
    .wrLK1ramp, .wrLActv, .wrLMode, .wrLPar, .wrLIrqv, .wrLPage]

/-- The high group's writes in the order of their register numbers (R94, R240). -/
def highWrites : List (Word → Instr) :=
  [.wrHCr, .wrHStart, .wrHEnd, .wrHAccum, .wrHO4n1, .wrHO3n1, .wrHO3n2, .wrHO2n1, .wrHO2n2, .wrHO1n1,
    .wrHWSt, .wrHWEnd, .wrHLrEnd, .wrHPar, .wrHIrqv, .wrHPage]

/-- The low group's reads (R93, R241). -/
def lowReads : List Instr :=
  [.rdLCr, .rdLFc, .rdLLvol, .rdLLvramp, .rdLRvol, .rdLRvramp, .rdLEcount, .rdLK2, .rdLK2ramp, .rdLK1,
    .rdLK1ramp, .rdLActv, .rdLMode, .rdLPar, .rdLIrqv, .rdLPage]

/-- The high group's reads (R94, R241). -/
def highReads : List Instr :=
  [.rdHCr, .rdHStart, .rdHEnd, .rdHAccum, .rdHO4n1, .rdHO3n1, .rdHO3n2, .rdHO2n1, .rdHO2n2, .rdHO1n1,
    .rdHWSt, .rdHWEnd, .rdHLrEnd, .rdHPar, .rdHIrqv, .rdHPage]

/-- The test group's writes, keys `0x60` to `0x6F` and `0x70` to `0x7F` (R95, R113). -/
def testWrite (g : BitVec 1) (reg : BitVec 4) (d : Word) : Instr :=
  if reg.toNat < 8 then .wrTRsv0 g (reg.extractLsb' 0 3) d
  else if reg.toNat < 12 then .wrTRsv8 g (reg.extractLsb' 0 2) d
  else if reg.toNat < 14 then .wrTRsvC g (reg.extractLsb' 0 1) d
  else if reg.toNat < 15 then .wrTIrqv g d
  else .wrTPage g d

/-- The test group's reads, keys `0x20` to `0x2F` and `0x30` to `0x3F` (R95, R113). -/
def testRead (g : BitVec 1) (reg : BitVec 4) : Instr :=
  if reg.toNat < 8 then .rdTRsv0 g (reg.extractLsb' 0 3)
  else if reg.toNat < 12 then .rdTRsv8 g (reg.extractLsb' 0 2)
  else if reg.toNat < 14 then .rdTRsvC g (reg.extractLsb' 0 1)
  else if reg.toNat < 15 then .rdTIrqv g
  else .rdTPage g

/-- The write whose key is {1, g, reg} (R91, R92, R240). -/
def writeInstr (g : BitVec 2) (reg : BitVec 4) (d : Word) : Instr :=
  if g = 0 then (lowWrites.getD reg.toNat .wrLPage) d
  else if g = 1 then (highWrites.getD reg.toNat .wrHPage) d
  else testWrite (g.extractLsb' 0 1) reg d

/-- The read whose key is {0, g, reg} (R91, R92, R241). -/
def readInstr (g : BitVec 2) (reg : BitVec 4) : Instr :=
  if g = 0 then lowReads.getD reg.toNat .rdLPage
  else if g = 1 then highReads.getD reg.toNat .rdHPage
  else testRead (g.extractLsb' 0 1) reg

/-! ## The decoder -/

/-- The operation whose CALL code is `code` (R106), its operands taken off the front of the bytes. -/
def getCall (code : Nat) (bytes : List Byte) : Option (Instr × List Byte) :=
  match code with
  | 0 => do
    let (n, bytes) ← getNat bytes
    return (.generate n, bytes)
  | 1 => do
    let (voice, bytes) ← getNat bytes
    let (value, bytes) ← getWord bytes
    return (.bankW voice value, bytes)
  | 2 => do
    let (a, bytes) ← getNat bytes
    let (b, bytes) ← getByte bytes
    return (.bus8Wb a b, bytes)
  | 3 => do
    let (a, bytes) ← getNat bytes
    return (.bus8Rb a, bytes)
  | 4 => do
    let (off, bytes) ← getNat bytes
    let (data, bytes) ← getHword bytes
    let (lanes, bytes) ← getByte bytes
    if lanes.extractLsb' 2 6 = 0 then return (.bus16W off data (lanes.extractLsb' 0 2), bytes) else none
  | 5 => do
    let (off, bytes) ← getNat bytes
    return (.bus16R off, bytes)
  | 6 => do
    let (p, bytes) ← getParams bytes
    return (.construct p, bytes)
  | _ => some (.callRsv, bytes)

/-- The operation read, if its operands were there and nothing is left over. -/
def wholeFrame : Option (Instr × List Byte) → Except DecodeError Instr
  | none => .error .badOperands
  | some (i, []) => .ok i
  | some (_, _ :: _) => .error .trailingBytes

/-- The operation a frame stands for while the page group bits `currentPage[6:5]` are `g` (R92, R110). -/
def decode (g : BitVec 2) (frame : List Byte) : Except DecodeError Instr :=
  match frame with
  | [] => .error .emptyFrame
  | b :: operands =>
    if b.getLsbD 7 then
      if b.extractLsb' 3 4 = 0 then wholeFrame (getCall (b.extractLsb' 0 3).toNat operands)
      else .error .reservedBits
    else if b.extractLsb' 4 2 ≠ 0 then .error .reservedBits
    else if b.getLsbD 6 then
      wholeFrame do
        let (d, rest) ← getWord operands
        return (writeInstr g (b.extractLsb' 0 4) d, rest)
    else wholeFrame (some (readInstr g (b.extractLsb' 0 4), operands))

/-! ## The encoder -/

/-- The key of an operation in spec/opcode_table.json: {W, G, reg} of R91, or the CALL code of R106. -/
inductive Key where
  | reg (w : BitVec 1) (g : BitVec 2) (reg : BitVec 4)
  | call (code : BitVec 3)
deriving DecidableEq, Repr

/-- The key of each operation (R93, R94, R95, R106). -/
def keyOf : Instr → Key
  | .wrLCr _ => .reg 1 0 0
  | .wrLFc _ => .reg 1 0 1
  | .wrLLvol _ => .reg 1 0 2
  | .wrLLvramp _ => .reg 1 0 3
  | .wrLRvol _ => .reg 1 0 4
  | .wrLRvramp _ => .reg 1 0 5
  | .wrLEcount _ => .reg 1 0 6
  | .wrLK2 _ => .reg 1 0 7
  | .wrLK2ramp _ => .reg 1 0 8
  | .wrLK1 _ => .reg 1 0 9
  | .wrLK1ramp _ => .reg 1 0 10
  | .wrLActv _ => .reg 1 0 11
  | .wrLMode _ => .reg 1 0 12
  | .wrLPar _ => .reg 1 0 13
  | .wrLIrqv _ => .reg 1 0 14
  | .wrLPage _ => .reg 1 0 15
  | .wrHCr _ => .reg 1 1 0
  | .wrHStart _ => .reg 1 1 1
  | .wrHEnd _ => .reg 1 1 2
  | .wrHAccum _ => .reg 1 1 3
  | .wrHO4n1 _ => .reg 1 1 4
  | .wrHO3n1 _ => .reg 1 1 5
  | .wrHO3n2 _ => .reg 1 1 6
  | .wrHO2n1 _ => .reg 1 1 7
  | .wrHO2n2 _ => .reg 1 1 8
  | .wrHO1n1 _ => .reg 1 1 9
  | .wrHWSt _ => .reg 1 1 10
  | .wrHWEnd _ => .reg 1 1 11
  | .wrHLrEnd _ => .reg 1 1 12
  | .wrHPar _ => .reg 1 1 13
  | .wrHIrqv _ => .reg 1 1 14
  | .wrHPage _ => .reg 1 1 15
  | .rdLCr => .reg 0 0 0
  | .rdLFc => .reg 0 0 1
  | .rdLLvol => .reg 0 0 2
  | .rdLLvramp => .reg 0 0 3
  | .rdLRvol => .reg 0 0 4
  | .rdLRvramp => .reg 0 0 5
  | .rdLEcount => .reg 0 0 6
  | .rdLK2 => .reg 0 0 7
  | .rdLK2ramp => .reg 0 0 8
  | .rdLK1 => .reg 0 0 9
  | .rdLK1ramp => .reg 0 0 10
  | .rdLActv => .reg 0 0 11
  | .rdLMode => .reg 0 0 12
  | .rdLPar => .reg 0 0 13
  | .rdLIrqv => .reg 0 0 14
  | .rdLPage => .reg 0 0 15
  | .rdHCr => .reg 0 1 0
  | .rdHStart => .reg 0 1 1
  | .rdHEnd => .reg 0 1 2
  | .rdHAccum => .reg 0 1 3
  | .rdHO4n1 => .reg 0 1 4
  | .rdHO3n1 => .reg 0 1 5
  | .rdHO3n2 => .reg 0 1 6
  | .rdHO2n1 => .reg 0 1 7
  | .rdHO2n2 => .reg 0 1 8
  | .rdHO1n1 => .reg 0 1 9
  | .rdHWSt => .reg 0 1 10
  | .rdHWEnd => .reg 0 1 11
  | .rdHLrEnd => .reg 0 1 12
  | .rdHPar => .reg 0 1 13
  | .rdHIrqv => .reg 0 1 14
  | .rdHPage => .reg 0 1 15
  | .wrTRsv0 g r _ => .reg 1 (1#1 ++ g) (0#1 ++ r)
  | .wrTRsv8 g r _ => .reg 1 (1#1 ++ g) (0b10#2 ++ r)
  | .wrTRsvC g r _ => .reg 1 (1#1 ++ g) (0b110#3 ++ r)
  | .wrTIrqv g _ => .reg 1 (1#1 ++ g) 14
  | .wrTPage g _ => .reg 1 (1#1 ++ g) 15
  | .rdTRsv0 g r => .reg 0 (1#1 ++ g) (0#1 ++ r)
  | .rdTRsv8 g r => .reg 0 (1#1 ++ g) (0b10#2 ++ r)
  | .rdTRsvC g r => .reg 0 (1#1 ++ g) (0b110#3 ++ r)
  | .rdTIrqv g => .reg 0 (1#1 ++ g) 14
  | .rdTPage g => .reg 0 (1#1 ++ g) 15
  | .generate _ => .call 0
  | .bankW _ _ => .call 1
  | .bus8Wb _ _ => .call 2
  | .bus8Rb _ => .call 3
  | .bus16W _ _ _ => .call 4
  | .bus16R _ => .call 5
  | .construct _ => .call 6
  | .callRsv => .call 7

/-- The bytes of an operation's operands. -/
def operandBytes : Instr → List Byte
  | .wrLCr d => putWord d
  | .wrLFc d => putWord d
  | .wrLLvol d => putWord d
  | .wrLLvramp d => putWord d
  | .wrLRvol d => putWord d
  | .wrLRvramp d => putWord d
  | .wrLEcount d => putWord d
  | .wrLK2 d => putWord d
  | .wrLK2ramp d => putWord d
  | .wrLK1 d => putWord d
  | .wrLK1ramp d => putWord d
  | .wrLActv d => putWord d
  | .wrLMode d => putWord d
  | .wrLPar d => putWord d
  | .wrLIrqv d => putWord d
  | .wrLPage d => putWord d
  | .wrHCr d => putWord d
  | .wrHStart d => putWord d
  | .wrHEnd d => putWord d
  | .wrHAccum d => putWord d
  | .wrHO4n1 d => putWord d
  | .wrHO3n1 d => putWord d
  | .wrHO3n2 d => putWord d
  | .wrHO2n1 d => putWord d
  | .wrHO2n2 d => putWord d
  | .wrHO1n1 d => putWord d
  | .wrHWSt d => putWord d
  | .wrHWEnd d => putWord d
  | .wrHLrEnd d => putWord d
  | .wrHPar d => putWord d
  | .wrHIrqv d => putWord d
  | .wrHPage d => putWord d
  | .rdLCr => []
  | .rdLFc => []
  | .rdLLvol => []
  | .rdLLvramp => []
  | .rdLRvol => []
  | .rdLRvramp => []
  | .rdLEcount => []
  | .rdLK2 => []
  | .rdLK2ramp => []
  | .rdLK1 => []
  | .rdLK1ramp => []
  | .rdLActv => []
  | .rdLMode => []
  | .rdLPar => []
  | .rdLIrqv => []
  | .rdLPage => []
  | .rdHCr => []
  | .rdHStart => []
  | .rdHEnd => []
  | .rdHAccum => []
  | .rdHO4n1 => []
  | .rdHO3n1 => []
  | .rdHO3n2 => []
  | .rdHO2n1 => []
  | .rdHO2n2 => []
  | .rdHO1n1 => []
  | .rdHWSt => []
  | .rdHWEnd => []
  | .rdHLrEnd => []
  | .rdHPar => []
  | .rdHIrqv => []
  | .rdHPage => []
  | .wrTRsv0 _ _ d => putWord d
  | .wrTRsv8 _ _ d => putWord d
  | .wrTRsvC _ _ d => putWord d
  | .wrTIrqv _ d => putWord d
  | .wrTPage _ d => putWord d
  | .rdTRsv0 _ _ => []
  | .rdTRsv8 _ _ => []
  | .rdTRsvC _ _ => []
  | .rdTIrqv _ => []
  | .rdTPage _ => []
  | .generate n => putNat n
  | .bankW voice value => putNat voice ++ putWord value
  | .bus8Wb a b => putNat a ++ putByte b
  | .bus8Rb a => putNat a
  | .bus16W off data lanes => putNat off ++ putHword data ++ putByte (lanes.setWidth 8)
  | .bus16R off => putNat off
  | .construct p => putParams p
  | .callRsv => []

/-- The first byte of an operation's frame; G is not in it. -/
def keyByte : Key → Byte
  | .reg w _ reg => (0#1 ++ w) ++ (0#2 ++ reg)
  | .call code => (1#1 ++ 0#4) ++ code

/-- The frame of an operation. -/
def encode (i : Instr) : List Byte := keyByte (keyOf i) :: operandBytes i

/-- The group bits `currentPage[6:5]` are those of the operation's key: always so for a CALL operation, which has
none. A register operation's row is reached in its own group only (R92). -/
def reachedIn (g : BitVec 2) (i : Instr) : Bool :=
  match keyOf i with
  | .reg _ g' _ => g' == g
  | .call _ => true

/-! ## The numbers of spec/opcode_table.json -/

/-- How many zero bytes stand for the operands of the operation with first byte `b`, each operand being 0: a natural
number 0 is one byte, and CONSTRUCT's parameters, all zero, are 27. -/
def zeroOperands (b : Byte) : Nat :=
  if b.getLsbD 7 then [1, 5, 2, 1, 4, 1, 27, 0].getD (b.extractLsb' 0 3).toNat 0
  else if b.getLsbD 6 then 4
  else 0

/-- Bytes of a number, least significant first. -/
def lowBytes : Nat → Nat → List Byte
  | 0, _ => []
  | k + 1, w => BitVec.ofNat 8 w :: lowBytes k (w / 256)

/-- The group bits and the frame that the number `w` of an opcode-table row stands for. The table numbers its two
formats alike (log 3): `nbits` of 3 or less is a CALL code; otherwise the low byte is a `REG` key when its bit 7 is 0,
and a CALL code when its bit 7 is 1. Bytes above the first are operand bytes; operands not given are zero. -/
def tableFrame (nbits w : Nat) : BitVec 2 × List Byte :=
  let key := BitVec.ofNat 8 w
  let first : Byte :=
    if nbits ≤ 3 then key ||| 0x80 else if key.getLsbD 7 then key else key &&& 0xCF
  let given := lowBytes ((nbits + 7) / 8 - 1) (w / 256)
  let operands := given ++ List.replicate (zeroOperands first - given.length) 0
  (key.extractLsb' 4 2, first :: operands)

/-- The operation the decoder reads from a row's number. -/
def decodeTableWord (nbits w : Nat) : Option Instr :=
  let (g, frame) := tableFrame nbits w
  match decode g frame with
  | .ok i => some i
  | .error _ => none

end Sys2Proof
end

