-- ==== Sys2Proof/Machine/Arith.lean ====
section
/-! DEFINITION. The integer primitives of spec/00_scope.md R8 and R9, over mathematical integers. -/

namespace Sys2Proof.Machine

/-- `wrap32(x)`: the i32 congruent to `x` modulo 2^32 (R8). -/
def wrap32 (x : Int) : Int := Int.bmod x 4294967296

/-- `x` is no i32: outside -2^31..2^31-1 (R160). -/
def outside32 (x : Int) : Bool := decide (x < -2147483648) || decide (2147483647 < x)

/-- `asr(x, n)`: arithmetic shift right, the floor of `x / 2^n` (R9). -/
def asr (x : Int) (n : Nat) : Int := x / (2 ^ n : Nat)

/-- `tdiv(a, b)`: division truncating toward zero (R9). -/
def tdiv (a b : Int) : Int := Int.tdiv a b

/-- `clamp(x, lo, hi)` (R9). -/
def clamp (x lo hi : Int) : Int := min (max x lo) hi

/-- `sext_18(d[17:0])` as the pattern of an i32 (R8, R96). -/
def sext18 (d : Word) : Word := (d.extractLsb' 0 18).signExtend 32

end Sys2Proof.Machine
end

