-- ==== Sys2Proof/Machine/State.lean ====
section
/-! DEFINITION. The state of the core (spec/10_state.md), as plain data, and its value right after construction, which
is the only reset (spec/70_reset_and_hazards.md R350, R353). -/

namespace Sys2Proof.Machine

/-- One of the 32 voices (R33). Its index is its place in `State.voices`. -/
structure Voice where
  /-- The control register (R34), its bits named in Machine/Flags.lean. -/
  control : Hword
  /-- Phase increment per sample, a magnitude (R45). -/
  freqCount : Word
  /-- Loop start, in accumulator format (R46). -/
  start : Word
  /-- Loop end, in accumulator format (R47); the spec's field `end`. -/
  endAddr : Word
  /-- Current phase: word offset in bits 31:11, fraction in bits 10:0 (R48). -/
  accum : Word
  /-- Left and right volume (R49). -/
  lvol : Hword
  rvol : Hword
  /-- Volume ramp deltas, read as i8 (R50). -/
  lvramp : Byte
  rvramp : Byte
  /-- Filter coefficients (R51). -/
  k1 : Hword
  k2 : Hword
  /-- Coefficient ramps: bit 31 slow flag, bits 7:0 delta (R52). -/
  k1ramp : Word
  k2ramp : Word
  /-- Filter history, each the pattern of an i32 (R53). -/
  o1n1 : Word
  o2n1 : Word
  o2n2 : Word
  o3n1 : Word
  o3n2 : Word
  o4n1 : Word
  /-- Envelope countdown (R54). -/
  ecount : BitVec 9
  /-- Slow-ramp phase counter (R55). -/
  filtCount : Byte
  /-- External word offset (R56). -/
  exBank : Word
deriving DecidableEq, Repr

/-- What the core gives the host, in order: the notifications of R12, the two buffers a GENERATE returns (R220), and
the value each read returns (R328, D34). -/
inductive Output where
  /-- `Notify(IrqLine(asserted))` (R12, R327). -/
  | irqLine (asserted : Bool)
  /-- `Notify(SampleRate(hz))` (R12, R253). -/
  | sampleRate (hz : Word)
  /-- What a canonical register read returns (R241). -/
  | readValue (v : Word)
  /-- What an 8-bit bus read returns (R301). -/
  | readByte (b : Byte)
  /-- What a 16-bit bus read returns (R303). -/
  | readHword (h : Hword)
  /-- The buffers a GENERATE returns, each word the pattern of an i32 (R220). -/
  | buffers (left right : List Word)
deriving DecidableEq, Repr

/-- The whole machine. -/
structure State where
  /-- The parameters the chip was constructed with (R5, R350); only CONSTRUCT writes them. -/
  params : Params
  /-- Number of voices mixed, minus one (R24). -/
  activeVoiceCount : BitVec 5
  /-- Selected voice in bits 4:0, page group in bits 6:5 (R25). -/
  currentPage : BitVec 7
  /-- 0x80 when free, else the index of the latched voice (R26). -/
  irqVector : Byte
  /-- Stored and read back only (R27). -/
  mode : BitVec 5
  /-- `W_ST`, `W_END`, `LR_END`: stored and read back only (R28). -/
  wst : BitVec 7
  wend : BitVec 7
  lrend : BitVec 7
  /-- The write latch of the 8-bit bus (R29). -/
  writeLatch : Word
  /-- The read latch of the 8-bit bus (R30). -/
  readLatch : Word
  /-- `V[0..31]` (R33). -/
  voices : Vector Voice 32
  /-- MODEL'S OWN: how often `PORT_READ` was called, which numbers its next free value (log 7). -/
  portReads : Nat
  /-- MODEL'S OWN: how many free i32 values were drawn for overflowing filter calls (R160; log 8). -/
  filterDraws : Nat
  /-- MODEL'S OWN: how many chips CONSTRUCT has built in this state's past, which numbers the run whose free words
  beyond a region's extent are read (R71; log 6). -/
  chips : Nat
  /-- The output event list of R12 and R328, oldest first. -/
  trace : List Output
  /-- MODEL'S OWN: the call frames of the operations the host has issued and the core has not begun (log 1), the next
  one first. -/
  hostOps : List (List Byte)
deriving DecidableEq, Repr

/-- The core has no fault: no operation and no pipeline stage traps, halts or returns an error (R320, R321). -/
inductive Fault where
deriving DecidableEq, Repr

/-- Why the model does not step on an operation (R321: a refusal is not an exception of the hardware). -/
inductive Refusal where
  /-- Raised by `exec` alone, for an instruction without a meaning; no arm raises it. Safe: the model stops. -/
  | notModelled (mnemonic : String)
  /-- Raised by CALL code 111, which is reserved and refused (R106, R109). Safe: nothing can be proved of what the
  hardware would do. -/
  | reservedCall
  /-- Raised by BANK_W with a voice index above 31, a caller contract violation (R109, R304). Safe. -/
  | voiceOutOfRange
  /-- Raised by a bus operation of the width the variant does not have (R102, R109). Safe. -/
  | wrongBusWidth
  /-- Raised by `step` for a frame that is no operation in the model's own frame layout (log 2); the core has no such
  input. Safe. -/
  | badFrame (e : DecodeError)
deriving DecidableEq, Repr

/-- A voice after construction (R33, R350): both stop bits set, volumes at maximum, everything else 0. -/
def Voice.fresh : Voice where
  control := 0x0003
  freqCount := 0
  start := 0
  endAddr := 0
  accum := 0
  lvol := 0xFFFF
  rvol := 0xFFFF
  lvramp := 0
  rvramp := 0
  k1 := 0
  k2 := 0
  k1ramp := 0
  k2ramp := 0
  o1n1 := 0
  o2n1 := 0
  o2n2 := 0
  o3n1 := 0
  o3n2 := 0
  o4n1 := 0
  ecount := 0
  filtCount := 0
  exBank := 0

/-- A chip in its reset state, built with parameters `p` (R350). The model's own fields stand at the values of log 5. -/
def State.fresh (p : Params) : State where
  params := p
  activeVoiceCount := 31
  currentPage := 0x00
  irqVector := 0x80
  mode := 0
  wst := 0
  wend := 0
  lrend := 0
  writeLatch := 0
  readLatch := 0
  voices := Vector.replicate 32 Voice.fresh
  portReads := 0
  filterDraws := 0
  chips := 0
  trace := []
  hostOps := []

/-- The machine right after reset: the chip of R350 with the parameters of log 4. -/
def State.reset : State := State.fresh Params.standard

end Sys2Proof.Machine
end

