-- ==== Sys2Proof/Machine/Operands.lean ====
section
/-! DEFINITION. Register fields in the 32-bit register word: on write (spec/30_encoding.md R96) and on read (R97), the
page-group decode (R92), and the register maps of the three page groups (R93, R94, R95). -/

namespace Sys2Proof.Machine

/-! ## On write: the field of the data word `d` that is stored (R96) -/

/-- CR: bits 15:0 with LEI forced to 0 (R242). -/
def crField (d : Word) : Hword := d.extractLsb' 0 16 &&& 0xFFFB

/-- LVOL, RVOL, K1, K2: bits 15:0. -/
def lowField (d : Word) : Hword := d.extractLsb' 0 16

/-- LVRAMP, RVRAMP: bits 15:8. -/
def rampField (d : Word) : Byte := d.extractLsb' 8 8

/-- K1RAMP, K2RAMP: `(d[0] << 31) | d[15:8]` (R250). -/
def kRampField (d : Word) : Word := (d.extractLsb' 0 1 ++ 0#23) ++ d.extractLsb' 8 8

/-- ECOUNT: bits 8:0. -/
def ecountField (d : Word) : BitVec 9 := d.extractLsb' 0 9

/-- ACTV, MODE: bits 4:0. -/
def fiveField (d : Word) : BitVec 5 := d.extractLsb' 0 5

/-- PAGE, W_ST, W_END, LR_END: bits 6:0. -/
def sevenField (d : Word) : BitVec 7 := d.extractLsb' 0 7

/-! ## On read: the register word a field is returned in (R97) -/

/-- LVRAMP, RVRAMP: the ramp in bits 15:8. -/
def rampWord (r : Byte) : Word := r.setWidth 32 <<< 8

/-- K1RAMP, K2RAMP: delta in bits 15:8, slow flag in bit 0. -/
def kRampWord (k : Word) : Word := ((k &&& 0xFF) <<< 8) ||| (k >>> 31)

/-- O1N1 to O4N1: the low 18 bits (R290). -/
def historyWord (o : Word) : Word := o &&& 0x3FFFF

/-! ## Page group and register maps -/

/-- The page groups (R25, R92). -/
inductive PageGroup where
  | low
  | high
  | test
deriving DecidableEq, Repr

/-- `currentPage[6:5]`: 00 low, 01 high, 1x test (R92). -/
def pageGroup (bits : BitVec 2) : PageGroup :=
  if bits = 0 then .low else if bits = 1 then .high else .test

/-- The registers of the register space (R93, R94), and the test group's reserved numbers (R95). -/
inductive Reg where
  | cr | fc | lvol | lvramp | rvol | rvramp | ecount | k2 | k2ramp | k1 | k1ramp | actv | mode
  | start | endAddr | accum | o4n1 | o3n1 | o3n2 | o2n1 | o2n2 | o1n1 | wst | wend | lrend
  | par | irqv | page
  | reserved
deriving DecidableEq, Repr

/-- The low group's registers by number (R93). -/
def lowGroup : List Reg :=
  [.cr, .fc, .lvol, .lvramp, .rvol, .rvramp, .ecount, .k2, .k2ramp, .k1, .k1ramp, .actv, .mode, .par, .irqv, .page]

/-- The high group's registers by number (R94). -/
def highGroup : List Reg :=
  [.cr, .start, .endAddr, .accum, .o4n1, .o3n1, .o3n2, .o2n1, .o2n2, .o1n1, .wst, .wend, .lrend, .par, .irqv, .page]

/-- The register a number reaches in a group (R93, R94, R95). -/
def regAt (g : PageGroup) (reg : BitVec 4) : Reg :=
  match g with
  | .low => lowGroup.getD reg.toNat .reserved
  | .high => highGroup.getD reg.toNat .reserved
  | .test => if reg = 14 then .irqv else if reg = 15 then .page else .reserved

end Sys2Proof.Machine
end

