-- ==== Sys2Proof/Machine/Flags.lean ====
section
/-! DEFINITION. The control register's bits (spec/10_state.md R34, R98), the derived views of R57, and the flag writes
of the engine (R208). -/

namespace Sys2Proof.Machine

/-! ## Bits of `control` (R34) -/

def Voice.stop0 (v : Voice) : Bool := v.control.getLsbD 0
def Voice.stop1 (v : Voice) : Bool := v.control.getLsbD 1
def Voice.lei (v : Voice) : Bool := v.control.getLsbD 2
def Voice.lpe (v : Voice) : Bool := v.control.getLsbD 3
def Voice.ble (v : Voice) : Bool := v.control.getLsbD 4
def Voice.irqe (v : Voice) : Bool := v.control.getLsbD 5
def Voice.dir (v : Voice) : Bool := v.control.getLsbD 6
def Voice.irq (v : Voice) : Bool := v.control.getLsbD 7
def Voice.lp3 (v : Voice) : Bool := v.control.getLsbD 8
def Voice.lp4 (v : Voice) : Bool := v.control.getLsbD 9
def Voice.cmpd (v : Voice) : Bool := v.control.getLsbD 13
def Voice.bank (v : Voice) : BitVec 2 := v.control.extractLsb' 14 2

/-! ## Derived views (R57) -/

/-- A voice is stopped when either stop bit is set (R35, C1). -/
def Voice.stopped (v : Voice) : Bool := v.stop0 || v.stop1

/-- The loop mode `LM = {BLE, LPE}` (R37). -/
inductive LoopMode where
  /-- `00`: no loop. -/
  | none
  /-- `01`: unidirectional. -/
  | unidirectional
  /-- `10`: trans-wave, one-shot. -/
  | transWave
  /-- `11`: bidirectional. -/
  | bidirectional
deriving DecidableEq, Repr

def Voice.loopMode (v : Voice) : LoopMode :=
  match v.ble, v.lpe with
  | false, false => .none
  | false, true => .unidirectional
  | true, false => .transWave
  | true, true => .bidirectional

/-- The controller's three states, derived and not stored (R39, R190). -/
inductive PlayState where
  | stopped
  | playingForward
  | playingReverse
deriving DecidableEq, Repr

def Voice.playState (v : Voice) : PlayState :=
  if v.stopped then .stopped else if v.dir then .playingReverse else .playingForward

/-- `IRQ_LINE`: asserted while a voice is latched (R327). -/
def State.irqLine (s : State) : Bool := !s.irqVector.getLsbD 7

/-! ## Flag writes of the engine and the arbiter (R208, R324) -/

/-- Set the bits of `mask` in `control`. -/
def setBits (mask : Hword) (v : Voice) : Voice := { v with control := v.control ||| mask }

/-- Clear the bits of `mask` in `control`. -/
def clearBits (mask : Hword) (v : Voice) : Voice := { v with control := v.control &&& ~~~mask }

/-- STOP0 <- 1 (R198, R205). -/
def setStop0 (v : Voice) : Voice := setBits 0x0001 v

/-- IRQ <- 1 (R196). -/
def setIrq (v : Voice) : Voice := setBits 0x0080 v

/-- IRQ <- 0 (R324). -/
def clearIrq (v : Voice) : Voice := clearBits 0x0080 v

/-- DIR <- 1 (R202). -/
def setDir (v : Voice) : Voice := setBits 0x0040 v

/-- DIR <- 0 (R203). -/
def clearDir (v : Voice) : Voice := clearBits 0x0040 v

/-- BLE <- 0, LPE <- 0, then LEI <- 1: the trans-wave transition (R201, D39). -/
def spendOneShot (v : Voice) : Voice := setBits 0x0004 (clearBits 0x0018 v)

end Sys2Proof.Machine
end

