-- ==== Sys2Proof/Machine/Ops.lean ====
section
/-! DEFINITION. The named operations the meanings share: reaching a voice, giving an output, reading waveform memory
(spec/20_memory.md), and the core's interrupt entry and return, the arbiter's latch and the acknowledging read of IRQV
(spec/60_exceptions.md). -/

namespace Sys2Proof.Machine

/-! ## Voices -/

/-- `V[v]`. -/
def State.voice (s : State) (v : VoiceIx) : Voice := s.voices[v.toNat]'v.isLt

/-- `V[v] <- x`. -/
def State.setVoice (s : State) (v : VoiceIx) (x : Voice) : State :=
  { s with voices := s.voices.set v.toNat x v.isLt }

/-- `sel = C.currentPage[4:0]`: the voice a register access targets (R25, R92). -/
def State.sel (s : State) : VoiceIx := s.currentPage.extractLsb' 0 5

/-- `C.currentPage[6:5]` (R92). -/
def State.groupBits (s : State) : BitVec 2 := s.currentPage.extractLsb' 5 2

/-- The selected voice. -/
def State.selVoice (s : State) : Voice := s.voice s.sel

/-- The selected voice after `f`. -/
def State.updSel (s : State) (f : Voice → Voice) : State := s.setVoice s.sel (f s.selVoice)

/-- The register number's register in the group the page selects now (R92, R240). -/
def State.regNow (s : State) (reg : BitVec 4) : Reg := regAt (pageGroup s.groupBits) reg

/-- Voices `0..C.activeVoiceCount` in ascending order (R223). -/
def State.activeVoices (s : State) : List VoiceIx :=
  (List.range (s.activeVoiceCount.toNat + 1)).map (BitVec.ofNat 5)

/-! ## Outputs -/

/-- `Notify(e)`, or the return of a value to the host: the output is appended to the trace (R12, R328). -/
def State.emit (s : State) (e : Output) : State := { s with trace := s.trace ++ [e] }

/-- The output sample rate for `n + 1` active voices (R61): truncating integer division. -/
def sampleRate (clock : Word) (n : BitVec 5) : Word := BitVec.ofNat 32 (clock.toNat / (16 * (n.toNat + 1)))

/-! ## Waveform memory -/

/-- `REGION[r]` (R32). -/
def regionOf (p : Params) (r : BitVec 2) : Option Memory :=
  if r = 0 then p.region0 else if r = 1 then p.region1 else if r = 2 then p.region2 else p.region3

/-- The byte the host supplied at byte address `n`; an unlisted one is 0 (log 9). -/
def memByte (m : Memory) (n : Nat) : Byte :=
  match m.cells.find? fun c => c.1 == n with
  | some c => c.2
  | none => 0

/-- The word the host supplied at word address `a` (R74; log 9). -/
def memWord (m : Memory) (a : Nat) : Hword := memByte m (2 * a) ++ memByte m (2 * a + 1)

/-- `MemRead(r, a, 2)` of a present region (R72): the host's word below the extent, a free word beyond it (R71). The
argument `chip` numbers the run (log 6). -/
def memRead (chip : Nat) (r : BitVec 2) (m : Memory) (a : Nat) : Hword :=
  if a < m.len then memWord m a else Config.beyondExtent chip r a

/-- The cell of one byte: none when it is 0. -/
def byteCell (n : Nat) (b : Byte) : List Host.Cell := if b = 0 then [] else [(n, b)]

/-- The cells of words from word address `a` on. -/
def cellsFrom : Nat → List Hword → List Host.Cell
  | _, [] => []
  | a, w :: ws => byteCell (2 * a) (w.extractLsb' 8 8) ++ byteCell (2 * a + 1) (w.extractLsb' 0 8) ++ cellsFrom (a + 1) ws

/-- The region that holds the given words from word 0 on: what the host supplies at construction (R32). -/
def memOfWords (ws : List Hword) : Memory := ⟨ws.length, cellsFrom 0 ws⟩

/-! ## Interrupt entry: the arbiter (R324, R330) -/

/-- The arbiter's visit to one voice: a pending voice is latched when the vector is free, its flag cleared and the
line asserted; otherwise nothing changes (R324). -/
def arbitrateVoice (s : State) (v : VoiceIx) : State :=
  if (s.voice v).irq && s.irqVector.getLsbD 7 then
    { s.setVoice v (clearIrq (s.voice v)) with irqVector := v.setWidth 8 }.emit (.irqLine true)
  else s

/-- `Arbitrate()`: every active voice in ascending order (R324, R325). -/
def arbitrate (s : State) : State := s.activeVoices.foldl arbitrateVoice s

/-! ## Interrupt return: the acknowledging read (R326, R331) -/

/-- A canonical read of IRQV: the vector as it stands; then the vector is free and the line deasserted, even when it
was free before (R285). -/
def acknowledge (s : State) : Word × State :=
  (s.irqVector.setWidth 32, { s with irqVector := 0x80 }.emit (.irqLine false))

/-! ## The input port -/

/-- A canonical read of PAR: one call of `PORT_READ` when the host supplies it, whose value is free; else 0 (R284). -/
def readPar (s : State) : Word × State :=
  if s.params.portRead then
    ((Config.portValue s.portReads).setWidth 32, { s with portReads := s.portReads + 1 })
  else (0, s)

end Sys2Proof.Machine
end

