-- ==== Sys2Proof/Machine/Registers.lean ====
section
/-! DEFINITION. The registers of the core, each with its write (spec/47_register_bus.md R242 to R269) and its read
(R271 to R298), and the canonical operations that reach them by number: RegWrite (R240), RegRead and RegPeek (R241).
A per-voice register is that of the selected voice (R92); `d` is the data word of a write. -/

namespace Sys2Proof.Machine

/-! ## Writes -/

/-- R242: every control bit but LEI, which becomes 0. -/
def storeCr (d : Word) (s : State) : State :=
  s.updSel fun v => { v with control := crField d }

/-- R243. -/
def storeFc (d : Word) (s : State) : State :=
  s.updSel fun v => { v with freqCount := d &&& s.params.fcMask }

/-- R244. -/
def storeLvol (d : Word) (s : State) : State :=
  s.updSel fun v => { v with lvol := lowField d }

/-- R245. -/
def storeLvramp (d : Word) (s : State) : State :=
  s.updSel fun v => { v with lvramp := rampField d }

/-- R246. -/
def storeRvol (d : Word) (s : State) : State :=
  s.updSel fun v => { v with rvol := lowField d }

/-- R247. -/
def storeRvramp (d : Word) (s : State) : State :=
  s.updSel fun v => { v with rvramp := rampField d }

/-- R248: every write clears `filtCount`. -/
def storeEcount (d : Word) (s : State) : State :=
  s.updSel fun v => { v with ecount := ecountField d, filtCount := 0 }

/-- R249. -/
def storeK2 (d : Word) (s : State) : State :=
  s.updSel fun v => { v with k2 := lowField d }

/-- R250. -/
def storeK2ramp (d : Word) (s : State) : State :=
  s.updSel fun v => { v with k2ramp := kRampField d }

/-- R251. -/
def storeK1 (d : Word) (s : State) : State :=
  s.updSel fun v => { v with k1 := lowField d }

/-- R252. -/
def storeK1ramp (d : Word) (s : State) : State :=
  s.updSel fun v => { v with k1ramp := kRampField d }

/-- R258. -/
def storeStart (d : Word) (s : State) : State :=
  s.updSel fun v => { v with start := d &&& s.params.startMask }

/-- R259. -/
def storeEnd (d : Word) (s : State) : State :=
  s.updSel fun v => { v with endAddr := d &&& s.params.endMask }

/-- R260: all 32 bits. -/
def storeAccum (d : Word) (s : State) : State :=
  s.updSel fun v => { v with accum := d }

/-- R261. -/
def storeO4n1 (d : Word) (s : State) : State :=
  s.updSel fun v => { v with o4n1 := sext18 d }

/-- R262. -/
def storeO3n1 (d : Word) (s : State) : State :=
  s.updSel fun v => { v with o3n1 := sext18 d }

/-- R263. -/
def storeO3n2 (d : Word) (s : State) : State :=
  s.updSel fun v => { v with o3n2 := sext18 d }

/-- R264. -/
def storeO2n1 (d : Word) (s : State) : State :=
  s.updSel fun v => { v with o2n1 := sext18 d }

/-- R265. -/
def storeO2n2 (d : Word) (s : State) : State :=
  s.updSel fun v => { v with o2n2 := sext18 d }

/-- R266. -/
def storeO1n1 (d : Word) (s : State) : State :=
  s.updSel fun v => { v with o1n1 := sext18 d }

/-- R253: the count is stored and the sample rate announced, on every write. -/
def storeActv (d : Word) (s : State) : State :=
  { s with activeVoiceCount := fiveField d }.emit (.sampleRate (sampleRate s.params.masterClockHz (fiveField d)))

/-- R254. -/
def storeMode (d : Word) (s : State) : State := { s with mode := fiveField d }

/-- R257: every later register access targets the new page; the bus latches are not affected. -/
def storePage (d : Word) (s : State) : State := { s with currentPage := sevenField d }

/-- R267. -/
def storeWst (d : Word) (s : State) : State := { s with wst := sevenField d }

/-- R268. -/
def storeWend (d : Word) (s : State) : State := { s with wend := sevenField d }

/-- R269. -/
def storeLrend (d : Word) (s : State) : State := { s with lrend := sevenField d }

/-! ## Reads without a side effect -/

/-- R271. -/
def loadCr (s : State) : Word := s.selVoice.control.setWidth 32

/-- R272. -/
def loadFc (s : State) : Word := s.selVoice.freqCount

/-- R273. -/
def loadLvol (s : State) : Word := s.selVoice.lvol.setWidth 32

/-- R274. -/
def loadLvramp (s : State) : Word := rampWord s.selVoice.lvramp

/-- R275. -/
def loadRvol (s : State) : Word := s.selVoice.rvol.setWidth 32

/-- R276. -/
def loadRvramp (s : State) : Word := rampWord s.selVoice.rvramp

/-- R277. -/
def loadEcount (s : State) : Word := s.selVoice.ecount.setWidth 32

/-- R278. -/
def loadK2 (s : State) : Word := s.selVoice.k2.setWidth 32

/-- R279. -/
def loadK2ramp (s : State) : Word := kRampWord s.selVoice.k2ramp

/-- R280. -/
def loadK1 (s : State) : Word := s.selVoice.k1.setWidth 32

/-- R281. -/
def loadK1ramp (s : State) : Word := kRampWord s.selVoice.k1ramp

/-- R287. -/
def loadStart (s : State) : Word := s.selVoice.start

/-- R288. -/
def loadEnd (s : State) : Word := s.selVoice.endAddr

/-- R289. -/
def loadAccum (s : State) : Word := s.selVoice.accum

/-- R290. -/
def loadO4n1 (s : State) : Word := historyWord s.selVoice.o4n1

/-- R291. -/
def loadO3n1 (s : State) : Word := historyWord s.selVoice.o3n1

/-- R292. -/
def loadO3n2 (s : State) : Word := historyWord s.selVoice.o3n2

/-- R293. -/
def loadO2n1 (s : State) : Word := historyWord s.selVoice.o2n1

/-- R294. -/
def loadO2n2 (s : State) : Word := historyWord s.selVoice.o2n2

/-- R295. -/
def loadO1n1 (s : State) : Word := historyWord s.selVoice.o1n1

/-- R282. -/
def loadActv (s : State) : Word := s.activeVoiceCount.setWidth 32

/-- R283. -/
def loadMode (s : State) : Word := s.mode.setWidth 32

/-- R286. -/
def loadPage (s : State) : Word := s.currentPage.setWidth 32

/-- R296. -/
def loadWst (s : State) : Word := s.wst.setWidth 32

/-- R297. -/
def loadWend (s : State) : Word := s.wend.setWidth 32

/-- R298. -/
def loadLrend (s : State) : Word := s.lrend.setWidth 32

/-! ## By register -/

/-- The write of each register (R240). PAR, IRQV and the reserved numbers of the test group ignore it (R255, R256,
R270). -/
def writeReg (r : Reg) (d : Word) (s : State) : State :=
  match r with
  | .cr => storeCr d s
  | .fc => storeFc d s
  | .lvol => storeLvol d s
  | .lvramp => storeLvramp d s
  | .rvol => storeRvol d s
  | .rvramp => storeRvramp d s
  | .ecount => storeEcount d s
  | .k2 => storeK2 d s
  | .k2ramp => storeK2ramp d s
  | .k1 => storeK1 d s
  | .k1ramp => storeK1ramp d s
  | .actv => storeActv d s
  | .mode => storeMode d s
  | .start => storeStart d s
  | .endAddr => storeEnd d s
  | .accum => storeAccum d s
  | .o4n1 => storeO4n1 d s
  | .o3n1 => storeO3n1 d s
  | .o3n2 => storeO3n2 d s
  | .o2n1 => storeO2n1 d s
  | .o2n2 => storeO2n2 d s
  | .o1n1 => storeO1n1 d s
  | .wst => storeWst d s
  | .wend => storeWend d s
  | .lrend => storeLrend d s
  | .par => s
  | .irqv => s
  | .page => storePage d s
  | .reserved => s

/-- The read of each register, with its side effect (R241). A reserved number reads 0 (R299). -/
def readReg (r : Reg) (s : State) : Word × State :=
  match r with
  | .cr => (loadCr s, s)
  | .fc => (loadFc s, s)
  | .lvol => (loadLvol s, s)
  | .lvramp => (loadLvramp s, s)
  | .rvol => (loadRvol s, s)
  | .rvramp => (loadRvramp s, s)
  | .ecount => (loadEcount s, s)
  | .k2 => (loadK2 s, s)
  | .k2ramp => (loadK2ramp s, s)
  | .k1 => (loadK1 s, s)
  | .k1ramp => (loadK1ramp s, s)
  | .actv => (loadActv s, s)
  | .mode => (loadMode s, s)
  | .start => (loadStart s, s)
  | .endAddr => (loadEnd s, s)
  | .accum => (loadAccum s, s)
  | .o4n1 => (loadO4n1 s, s)
  | .o3n1 => (loadO3n1 s, s)
  | .o3n2 => (loadO3n2 s, s)
  | .o2n1 => (loadO2n1 s, s)
  | .o2n2 => (loadO2n2 s, s)
  | .o1n1 => (loadO1n1 s, s)
  | .wst => (loadWst s, s)
  | .wend => (loadWend s, s)
  | .lrend => (loadLrend s, s)
  | .par => readPar s
  | .irqv => acknowledge s
  | .page => (loadPage s, s)
  | .reserved => (0, s)

/-- A register's value without side effects: IRQV is not acknowledged, PAR is 0 without a call of `PORT_READ`, every
other register is as its read (R241). -/
def peekReg (r : Reg) (s : State) : Word :=
  match r with
  | .irqv => s.irqVector.setWidth 32
  | .par => 0
  | r => (readReg r s).1

/-! ## By register number, in the group the page selects now -/

/-- `RegWrite(reg, d)` (R240). -/
def regWrite (reg : BitVec 4) (d : Word) (s : State) : State := writeReg (s.regNow reg) d s

/-- `RegRead(reg)` (R241). -/
def regRead (reg : BitVec 4) (s : State) : Word × State := readReg (s.regNow reg) s

/-- `RegPeek(reg)` (R241). -/
def regPeek (reg : BitVec 4) (s : State) : Word := peekReg (s.regNow reg) s

/-- A canonical read as a host operation of its own: the value read is returned to the host (R328). -/
def returned (r : Word × State) : State := r.2.emit (.readValue r.1)

end Sys2Proof.Machine
end

