-- ==== Sys2Proof/Machine/Bus.lean ====
section
/-! DEFINITION. The two bus adapters and the bank select (spec/47_register_bus.md R300 to R304). -/

namespace Sys2Proof.Machine

/-! ## 8-bit bus -/

/-- Only `A mod 64` is decoded (R100). -/
def busAddress (a : Nat) : BitVec 6 := BitVec.ofNat 6 a

/-- The register number `A[5:2]` (R100). -/
def busReg (a : Nat) : BitVec 4 := (busAddress a).extractLsb' 2 4

/-- The lane `A[1:0]` (R100). -/
def busLane (a : Nat) : BitVec 2 := (busAddress a).extractLsb' 0 2

/-- Lane 0 carries bits 31:24, lane 3 bits 7:0: the lane's shift is `8 * (3 - L)` (R75, R300). -/
def laneShift (lane : BitVec 2) : Nat := 8 * (3 - lane.toNat)

/-- The write latch with one lane's byte replaced (R300). -/
def latchByte (latch : Word) (lane : BitVec 2) (b : Byte) : Word :=
  (latch &&& ~~~((0xFF : Word) <<< laneShift lane)) ||| (b.setWidth 32 <<< laneShift lane)

/-- `BUS8_WB(A, b)`: lanes 0 to 2 change only the latch; lane 3 commits it to the register of this access's address in
the group selected now, then clears it (R300). -/
def bus8Write (a : Nat) (b : Byte) (s : State) : State :=
  let latch := latchByte s.writeLatch (busLane a) b
  let s1 := { s with writeLatch := latch }
  if busLane a = 3 then { regWrite (busReg a) latch s1 with writeLatch := 0 } else s1

/-- `BUS8_RB(A)`: lane 0 reads the register into the read latch, with its side effect; every lane returns its byte of
the latch (R301). -/
def bus8Read (a : Nat) (s : State) : Byte × State :=
  let s1 :=
    if busLane a = 0 then
      let r := regRead (busReg a) s
      { r.2 with readLatch := r.1 }
    else s
  ((s1.readLatch >>> laneShift (busLane a)).setWidth 8, s1)

/-- `BUS8_WB`, on an ES5506 only (R102, R300). -/
def execBus8Wb (a : Nat) (b : Byte) (s : State) : Host.Outcome State Fault Refusal :=
  match s.params.variant with
  | .es5506 => .next (bus8Write a b s)
  | .es5505 => .refused .wrongBusWidth

/-- `BUS8_RB`, on an ES5506 only (R102, R301). -/
def execBus8Rb (a : Nat) (s : State) : Host.Outcome State Fault Refusal :=
  match s.params.variant with
  | .es5506 => .next ((bus8Read a s).2.emit (.readByte (bus8Read a s).1))
  | .es5505 => .refused .wrongBusWidth

/-! ## 16-bit bus -/

/-- `BUS16_MAP(off)` (R101): the line that lists exactly this offset, none where no line does (log 15). -/
def busLine (p : Params) (off : Nat) : Option BusLine := p.bus16Map.find? fun l => l.off == off

/-- The shift of the half a 16-bit offset reaches (R302). -/
def halfShift (h : RegHalf) : Nat :=
  match h with
  | .hi => 16
  | .lo => 0

/-- The bits of the register word that a lane mask selects: lane bit 1 data bits 15:8, lane bit 0 bits 7:0 (R101, R302). -/
def laneBits (h : RegHalf) (lanes : BitVec 2) : Word :=
  ((if lanes.getLsbD 1 then 0xFF00 else 0) ||| (if lanes.getLsbD 0 then 0x00FF else 0)) <<< halfShift h

/-- The register word with the selected bytes of one half replaced (R302). -/
def mergeLanes (old : Word) (h : RegHalf) (data : Hword) (lanes : BitVec 2) : Word :=
  (old &&& ~~~laneBits h lanes) ||| ((data.setWidth 32 <<< halfShift h) &&& laneBits h lanes)

/-- `BUS16_W(off, data, lanes)`: a read-modify-write through RegPeek and RegWrite; an offset the map leaves out is
ignored (R302). -/
def bus16Write (off : Nat) (data : Hword) (lanes : BitVec 2) (s : State) : State :=
  match busLine s.params off with
  | none => s
  | some l => regWrite l.reg (mergeLanes (regPeek l.reg s) l.half data lanes) s

/-- `BUS16_R(off)`: one half of a RegRead, with its side effect; an offset the map leaves out reads 0 (R303). -/
def bus16Read (off : Nat) (s : State) : Hword × State :=
  match busLine s.params off with
  | none => (0, s)
  | some l => (((regRead l.reg s).1 >>> halfShift l.half).setWidth 16, (regRead l.reg s).2)

/-- `BUS16_W`, on an ES5505 only (R102, R302). -/
def execBus16W (off : Nat) (data : Hword) (lanes : BitVec 2) (s : State) : Host.Outcome State Fault Refusal :=
  match s.params.variant with
  | .es5505 => .next (bus16Write off data lanes s)
  | .es5506 => .refused .wrongBusWidth

/-- `BUS16_R`, on an ES5505 only (R102, R303). -/
def execBus16R (off : Nat) (s : State) : Host.Outcome State Fault Refusal :=
  match s.params.variant with
  | .es5505 => .next ((bus16Read off s).2.emit (.readHword (bus16Read off s).1))
  | .es5506 => .refused .wrongBusWidth

/-! ## Bank select -/

/-- `BANK_W(voice, value)`: the voice's `exBank`, whatever the page and the variant; refused above voice 31 (R304). -/
def execBankW (voice : Nat) (value : Word) (s : State) : Host.Outcome State Fault Refusal :=
  if voice ≤ 31 then
    let v := BitVec.ofNat 5 voice
    .next (s.setVoice v { s.voice v with exBank := value })
  else .refused .voiceOutOfRange

end Sys2Proof.Machine
end

