-- ==== Sys2Proof/Machine/HighReads.lean ====
section
/-! DEFINITION. The reads of the high page group, keys 0x10 to 0x1F (spec/47_register_bus.md R271, R284 to R298). -/

namespace Sys2Proof.Machine

/-- `RD.H.CR` (R271). -/
def execRdHCr (s : State) : Host.Outcome State Fault Refusal := .next (returned (loadCr s, s))

/-- `RD.H.START` (R287). -/
def execRdHStart (s : State) : Host.Outcome State Fault Refusal := .next (returned (loadStart s, s))

/-- `RD.H.END` (R288). -/
def execRdHEnd (s : State) : Host.Outcome State Fault Refusal := .next (returned (loadEnd s, s))

/-- `RD.H.ACCUM` (R289). -/
def execRdHAccum (s : State) : Host.Outcome State Fault Refusal := .next (returned (loadAccum s, s))

/-- `RD.H.O4N1` (R290). -/
def execRdHO4n1 (s : State) : Host.Outcome State Fault Refusal := .next (returned (loadO4n1 s, s))

/-- `RD.H.O3N1` (R291). -/
def execRdHO3n1 (s : State) : Host.Outcome State Fault Refusal := .next (returned (loadO3n1 s, s))

/-- `RD.H.O3N2` (R292). -/
def execRdHO3n2 (s : State) : Host.Outcome State Fault Refusal := .next (returned (loadO3n2 s, s))

/-- `RD.H.O2N1` (R293). -/
def execRdHO2n1 (s : State) : Host.Outcome State Fault Refusal := .next (returned (loadO2n1 s, s))

/-- `RD.H.O2N2` (R294). -/
def execRdHO2n2 (s : State) : Host.Outcome State Fault Refusal := .next (returned (loadO2n2 s, s))

/-- `RD.H.O1N1` (R295). -/
def execRdHO1n1 (s : State) : Host.Outcome State Fault Refusal := .next (returned (loadO1n1 s, s))

/-- `RD.H.W_ST` (R296). -/
def execRdHWSt (s : State) : Host.Outcome State Fault Refusal := .next (returned (loadWst s, s))

/-- `RD.H.W_END` (R297). -/
def execRdHWEnd (s : State) : Host.Outcome State Fault Refusal := .next (returned (loadWend s, s))

/-- `RD.H.LR_END` (R298). -/
def execRdHLrEnd (s : State) : Host.Outcome State Fault Refusal := .next (returned (loadLrend s, s))

/-- `RD.H.PAR` (R284). -/
def execRdHPar (s : State) : Host.Outcome State Fault Refusal := .next (returned (readPar s))

/-- `RD.H.IRQV` (R285). -/
def execRdHIrqv (s : State) : Host.Outcome State Fault Refusal := .next (returned (acknowledge s))

/-- `RD.H.PAGE` (R286). -/
def execRdHPage (s : State) : Host.Outcome State Fault Refusal := .next (returned (loadPage s, s))

end Sys2Proof.Machine
end

