-- ==== Sys2Proof/Machine/HighWrites.lean ====
section
/-! DEFINITION. The writes of the high page group, keys 0x50 to 0x5F (spec/47_register_bus.md R242, R255 to R269). -/

namespace Sys2Proof.Machine

/-- `WR.H.CR` (R242). -/
def execWrHCr (d : Word) (s : State) : Host.Outcome State Fault Refusal := .next (storeCr d s)

/-- `WR.H.START` (R258). -/
def execWrHStart (d : Word) (s : State) : Host.Outcome State Fault Refusal := .next (storeStart d s)

/-- `WR.H.END` (R259). -/
def execWrHEnd (d : Word) (s : State) : Host.Outcome State Fault Refusal := .next (storeEnd d s)

/-- `WR.H.ACCUM` (R260). -/
def execWrHAccum (d : Word) (s : State) : Host.Outcome State Fault Refusal := .next (storeAccum d s)

/-- `WR.H.O4N1` (R261). -/
def execWrHO4n1 (d : Word) (s : State) : Host.Outcome State Fault Refusal := .next (storeO4n1 d s)

/-- `WR.H.O3N1` (R262). -/
def execWrHO3n1 (d : Word) (s : State) : Host.Outcome State Fault Refusal := .next (storeO3n1 d s)

/-- `WR.H.O3N2` (R263). -/
def execWrHO3n2 (d : Word) (s : State) : Host.Outcome State Fault Refusal := .next (storeO3n2 d s)

/-- `WR.H.O2N1` (R264). -/
def execWrHO2n1 (d : Word) (s : State) : Host.Outcome State Fault Refusal := .next (storeO2n1 d s)

/-- `WR.H.O2N2` (R265). -/
def execWrHO2n2 (d : Word) (s : State) : Host.Outcome State Fault Refusal := .next (storeO2n2 d s)

/-- `WR.H.O1N1` (R266). -/
def execWrHO1n1 (d : Word) (s : State) : Host.Outcome State Fault Refusal := .next (storeO1n1 d s)

/-- `WR.H.W_ST` (R267). -/
def execWrHWSt (d : Word) (s : State) : Host.Outcome State Fault Refusal := .next (storeWst d s)

/-- `WR.H.W_END` (R268). -/
def execWrHWEnd (d : Word) (s : State) : Host.Outcome State Fault Refusal := .next (storeWend d s)

/-- `WR.H.LR_END` (R269). -/
def execWrHLrEnd (d : Word) (s : State) : Host.Outcome State Fault Refusal := .next (storeLrend d s)

/-- `WR.H.PAR` (R255): the port register is read-only: nothing changes and nothing is called. -/
def execWrHPar (_d : Word) (s : State) : Host.Outcome State Fault Refusal := .next s

/-- `WR.H.IRQV` (R256): the vector is read-only to the host: nothing changes, nothing is acknowledged. -/
def execWrHIrqv (_d : Word) (s : State) : Host.Outcome State Fault Refusal := .next s

/-- `WR.H.PAGE` (R257). -/
def execWrHPage (d : Word) (s : State) : Host.Outcome State Fault Refusal := .next (storePage d s)

end Sys2Proof.Machine
end

