-- ==== Sys2Proof/Machine/LowReads.lean ====
section
/-! DEFINITION. The reads of the low page group, keys 0x00 to 0x0F (spec/47_register_bus.md R271 to R286). -/

namespace Sys2Proof.Machine

/-- `RD.L.CR` (R271). -/
def execRdLCr (s : State) : Host.Outcome State Fault Refusal := .next (returned (loadCr s, s))

/-- `RD.L.FC` (R272). -/
def execRdLFc (s : State) : Host.Outcome State Fault Refusal := .next (returned (loadFc s, s))

/-- `RD.L.LVOL` (R273). -/
def execRdLLvol (s : State) : Host.Outcome State Fault Refusal := .next (returned (loadLvol s, s))

/-- `RD.L.LVRAMP` (R274). -/
def execRdLLvramp (s : State) : Host.Outcome State Fault Refusal := .next (returned (loadLvramp s, s))

/-- `RD.L.RVOL` (R275). -/
def execRdLRvol (s : State) : Host.Outcome State Fault Refusal := .next (returned (loadRvol s, s))

/-- `RD.L.RVRAMP` (R276). -/
def execRdLRvramp (s : State) : Host.Outcome State Fault Refusal := .next (returned (loadRvramp s, s))

/-- `RD.L.ECOUNT` (R277). -/
def execRdLEcount (s : State) : Host.Outcome State Fault Refusal := .next (returned (loadEcount s, s))

/-- `RD.L.K2` (R278). -/
def execRdLK2 (s : State) : Host.Outcome State Fault Refusal := .next (returned (loadK2 s, s))

/-- `RD.L.K2RAMP` (R279). -/
def execRdLK2ramp (s : State) : Host.Outcome State Fault Refusal := .next (returned (loadK2ramp s, s))

/-- `RD.L.K1` (R280). -/
def execRdLK1 (s : State) : Host.Outcome State Fault Refusal := .next (returned (loadK1 s, s))

/-- `RD.L.K1RAMP` (R281). -/
def execRdLK1ramp (s : State) : Host.Outcome State Fault Refusal := .next (returned (loadK1ramp s, s))

/-- `RD.L.ACTV` (R282). -/
def execRdLActv (s : State) : Host.Outcome State Fault Refusal := .next (returned (loadActv s, s))

/-- `RD.L.MODE` (R283). -/
def execRdLMode (s : State) : Host.Outcome State Fault Refusal := .next (returned (loadMode s, s))

/-- `RD.L.PAR` (R284). -/
def execRdLPar (s : State) : Host.Outcome State Fault Refusal := .next (returned (readPar s))

/-- `RD.L.IRQV` (R285). -/
def execRdLIrqv (s : State) : Host.Outcome State Fault Refusal := .next (returned (acknowledge s))

/-- `RD.L.PAGE` (R286). -/
def execRdLPage (s : State) : Host.Outcome State Fault Refusal := .next (returned (loadPage s, s))

end Sys2Proof.Machine
end

