-- ==== Sys2Proof/Machine/LowWrites.lean ====
section
/-! DEFINITION. The writes of the low page group, keys 0x40 to 0x4F (spec/47_register_bus.md R242 to R257). -/

namespace Sys2Proof.Machine

/-- `WR.L.CR` (R242). -/
def execWrLCr (d : Word) (s : State) : Host.Outcome State Fault Refusal := .next (storeCr d s)

/-- `WR.L.FC` (R243). -/
def execWrLFc (d : Word) (s : State) : Host.Outcome State Fault Refusal := .next (storeFc d s)

/-- `WR.L.LVOL` (R244). -/
def execWrLLvol (d : Word) (s : State) : Host.Outcome State Fault Refusal := .next (storeLvol d s)

/-- `WR.L.LVRAMP` (R245). -/
def execWrLLvramp (d : Word) (s : State) : Host.Outcome State Fault Refusal := .next (storeLvramp d s)

/-- `WR.L.RVOL` (R246). -/
def execWrLRvol (d : Word) (s : State) : Host.Outcome State Fault Refusal := .next (storeRvol d s)

/-- `WR.L.RVRAMP` (R247). -/
def execWrLRvramp (d : Word) (s : State) : Host.Outcome State Fault Refusal := .next (storeRvramp d s)

/-- `WR.L.ECOUNT` (R248). -/
def execWrLEcount (d : Word) (s : State) : Host.Outcome State Fault Refusal := .next (storeEcount d s)

/-- `WR.L.K2` (R249). -/
def execWrLK2 (d : Word) (s : State) : Host.Outcome State Fault Refusal := .next (storeK2 d s)

/-- `WR.L.K2RAMP` (R250). -/
def execWrLK2ramp (d : Word) (s : State) : Host.Outcome State Fault Refusal := .next (storeK2ramp d s)

/-- `WR.L.K1` (R251). -/
def execWrLK1 (d : Word) (s : State) : Host.Outcome State Fault Refusal := .next (storeK1 d s)

/-- `WR.L.K1RAMP` (R252). -/
def execWrLK1ramp (d : Word) (s : State) : Host.Outcome State Fault Refusal := .next (storeK1ramp d s)

/-- `WR.L.ACTV` (R253). -/
def execWrLActv (d : Word) (s : State) : Host.Outcome State Fault Refusal := .next (storeActv d s)

/-- `WR.L.MODE` (R254). -/
def execWrLMode (d : Word) (s : State) : Host.Outcome State Fault Refusal := .next (storeMode d s)

/-- `WR.L.PAR` (R255): the port register is read-only: nothing changes and nothing is called. -/
def execWrLPar (_d : Word) (s : State) : Host.Outcome State Fault Refusal := .next s

/-- `WR.L.IRQV` (R256): the vector is read-only to the host: nothing changes, nothing is acknowledged. -/
def execWrLIrqv (_d : Word) (s : State) : Host.Outcome State Fault Refusal := .next s

/-- `WR.L.PAGE` (R257). -/
def execWrLPage (d : Word) (s : State) : Host.Outcome State Fault Refusal := .next (storePage d s)

end Sys2Proof.Machine
end

