-- ==== Sys2Proof/Machine/Envelope.lean ====
section
/-! DEFINITION. The envelope and ramp engine (spec/43_envelope.md). -/

namespace Sys2Proof.Machine

/-- A volume or coefficient after `c` steps of a signed 8-bit delta: the exact sum, clamped to 0..0xFFFF (R174, R175). -/
def ramped (level : Hword) (delta : Byte) (c : Nat) : Hword :=
  BitVec.ofInt 16 (clamp (level.toNat + delta.toInt * c) 0 0xFFFF)

/-- Whether a coefficient ramp fires in this call: it is nonzero, and either fast or at a multiple of 8 of
`filtCount` (R175, R176). -/
def rampGate (ramp : Word) (filtCount : Byte) : Bool :=
  ramp != 0 && (!ramp.getLsbD 31 || filtCount &&& 7 == 0)

/-- `Envelope(v, n)` (R171 to R177). Both gates read `filtCount` before this call advances it. -/
def envelope (v : Voice) (n : Nat) : Voice :=
  if v.ecount = 0 then v
  else
    let c := min v.ecount.toNat n
    { v with
      ecount := v.ecount - BitVec.ofNat 9 c
      lvol := ramped v.lvol v.lvramp c
      rvol := ramped v.rvol v.rvramp c
      k1 := if rampGate v.k1ramp v.filtCount then ramped v.k1 (v.k1ramp.extractLsb' 0 8) c else v.k1
      k2 := if rampGate v.k2ramp v.filtCount then ramped v.k2 (v.k2ramp.extractLsb' 0 8) c else v.k2
      filtCount := v.filtCount + BitVec.ofNat 8 c }

end Sys2Proof.Machine
end

