-- ==== Sys2Proof/Machine/Fetch.lean ====
section
/-! DEFINITION. Sample fetch, decode and interpolation, and the two lookup tables (spec/41_fetch_interp.md). -/

namespace Sys2Proof.Machine

/-! ## Tables -/

/-- `ULAW[i]` (R136, with the signed reading of R137): a 3-bit exponent in bits 15:13 of the biased code, the rest
shifted up, folded when the exponent is not 0, and shifted down as a signed 16-bit value. -/
def ulaw (bias : Hword) (i : Byte) : Int :=
  let code : Hword := (i.setWidth 16 <<< 8) ||| bias
  let e : Nat := (code >>> 13).toNat
  let m : Hword := code <<< 3
  if e = 0 then asr m.toInt 7
  else asr ((m >>> 1) ||| (~~~m &&& 0x8000)).toInt (7 - e)

/-- `VOL[i]` (R142): the default formula, or the host's table. -/
def volume (t : VolumeLookup) (i : Nat) : Hword :=
  match t with
  | .standard => BitVec.ofNat 16 ((((i &&& 0xFF) ||| 0x100) <<< 11) >>> (20 - (i >>> 8)))
  | .custom table => table.getD i 0

/-! ## Addresses -/

/-- `wa0 = exBank + (a0 >> 11)`, over the naturals (R131). -/
def firstAddress (exBank a0 : Word) : Nat := exBank.toNat + (a0 >>> 11).toNat

/-- `wa1 = exBank + (a1 >> 11)` with `a1 = u32(a0 + 0x800) & M`: always the next word upward (R132, C3, C4). -/
def secondAddress (mask exBank a0 : Word) : Nat := exBank.toNat + (((a0 + 0x800) &&& mask) >>> 11).toNat

/-! ## Decode and interpolate -/

/-- A raw word as a signed sample: PCM reads it as i16 (R134), u-law looks up its bits 15:8 (R135). -/
def decodeSample (bias : Hword) (law : Bool) (w : Hword) : Int :=
  if law then ulaw bias (w.extractLsb' 8 8) else w.toInt

/-- `x = asr(s0 * (0x800 - f) + s1 * f, 11)` with `f = a0 & 0x7FF` (R138). -/
def interpolate (s0 s1 : Int) (a0 : Word) : Int :=
  let f : Int := (a0 &&& 0x7FF).toNat
  asr (s0 * (0x800 - f) + s1 * f) 11

/-- `FetchInterp(v, a0)` on a present region `m` (R130 to R138): two words of the voice's bank, decoded and blended. -/
def fetchInterp (p : Params) (chip : Nat) (law : Bool) (m : Memory) (v : Voice) (a0 : Word) : Int :=
  let w0 := memRead chip v.bank m (firstAddress v.exBank a0)
  let w1 := memRead chip v.bank m (secondAddress p.variant.accumMask v.exBank a0)
  interpolate (decodeSample p.ulawBias law w0) (decodeSample p.ulawBias law w1) a0

end Sys2Proof.Machine
end

