-- ==== Sys2Proof/Machine/Filter.lean ====
section
/-! DEFINITION. The four-pole cascaded filter (spec/42_filter.md). -/

namespace Sys2Proof.Machine

/-- What one section gives: its i32 output, and whether a product, sum or difference of it left the i32 range (R160). -/
structure Pole where
  out : Int
  overflow : Bool
deriving DecidableEq, Repr

/-- `k >> 2`, in 0..16383 (R151). -/
def coefficient (k : Hword) : Int := (k >>> 2).toNat

/-- The low-pass section `LP(k, y, o)` (R152). -/
def lowPass (k : Hword) (y o : Int) : Pole :=
  let difference := y - o
  let product := coefficient k * wrap32 difference
  let total := tdiv (wrap32 product) 16384 + o
  ⟨wrap32 total, outside32 difference || outside32 product || outside32 total⟩

/-- The high-pass section `HP(k, y, oprev, o)` (R152). -/
def highPass (k : Hword) (y oprev o : Int) : Pole :=
  let difference := y - oprev
  let product := coefficient k * o
  let partSum := difference + tdiv (wrap32 product) 32768
  let total := partSum + tdiv o 2
  ⟨wrap32 total, outside32 difference || outside32 product || outside32 partSum || outside32 total⟩

/-- What one call of the filter computes: the output, the six history cells, and whether any of its arithmetic left
the i32 range. -/
structure Cascade where
  y : Int
  o1n1 : Int
  o2n1 : Int
  o2n2 : Int
  o3n1 : Int
  o3n2 : Int
  o4n1 : Int
  overflow : Bool
deriving DecidableEq, Repr

/-- The four poles in order (R153 to R158): poles 1 and 2 low-pass on K1; poles 3 and 4 by `PS = {LP4, LP3}`. `o2n2` and
`o3n2` take the old `o2n1` and `o3n1`, in every pole select (D38), before a high-pass section reads them. -/
def cascade (v : Voice) (x : Int) : Cascade :=
  let o2n2 := v.o2n1.toInt
  let o3n1 := v.o3n1.toInt
  let o3n2 := o3n1
  let o4n1 := v.o4n1.toInt
  let p1 := lowPass v.k1 x v.o1n1.toInt
  let p2 := lowPass v.k1 p1.out v.o2n1.toInt
  let p3 :=
    match v.lp4, v.lp3 with
    | false, false => highPass v.k2 p2.out o2n2 o3n1
    | false, true => lowPass v.k1 p2.out o3n1
    | true, false => lowPass v.k2 p2.out o3n1
    | true, true => lowPass v.k1 p2.out o3n1
  let p4 := if v.lp4 then lowPass v.k2 p3.out o4n1 else highPass v.k2 p3.out o3n2 o4n1
  ⟨p4.out, p1.out, p2.out, o2n2, p3.out, o3n2, p4.out, p1.overflow || p2.overflow || p3.overflow || p4.overflow⟩

/-- What `Filter(v, x)` leaves: its output, the voice with its history written, and the count of free values drawn. -/
structure Filtered where
  y : Int
  voice : Voice
  draws : Nat
deriving DecidableEq, Repr

/-- `Filter(v, x)` (R150 to R160). Under `FILTER_OVERFLOW = draw` an overflowing call's output and history are seven
free i32 values (R160; log 8); otherwise the wrapped results stand, unsaturated (R151, R163). -/
def filter (mode : FilterOverflow) (v : Voice) (x : Int) (draws : Nat) : Filtered :=
  let r := cascade v x
  if mode = .draw ∧ r.overflow = true then
    { y := (Config.filterDraw draws).toInt
      voice := { v with
        o1n1 := Config.filterDraw (draws + 1)
        o2n1 := Config.filterDraw (draws + 2)
        o2n2 := Config.filterDraw (draws + 3)
        o3n1 := Config.filterDraw (draws + 4)
        o3n2 := Config.filterDraw (draws + 5)
        o4n1 := Config.filterDraw (draws + 6) }
      draws := draws + 7 }
  else
    { y := r.y
      voice := { v with
        o1n1 := BitVec.ofInt 32 r.o1n1
        o2n1 := BitVec.ofInt 32 r.o2n1
        o2n2 := BitVec.ofInt 32 r.o2n2
        o3n1 := BitVec.ofInt 32 r.o3n1
        o3n2 := BitVec.ofInt 32 r.o3n2
        o4n1 := BitVec.ofInt 32 r.o4n1 }
      draws := draws }

end Sys2Proof.Machine
end

