-- ==== Sys2Proof/Machine/Loop.lean ====
section
/-! DEFINITION. The loop controller: advance, boundary test, loop and reflection (spec/44_loop.md). `mask` is
`C.accumMask` throughout. -/

namespace Sys2Proof.Machine

/-- `Advance(v, a0)` with `a0` the accumulator: plus or minus FC by DIR, modulo 2^32, then masked (R192). -/
def advance (mask : Word) (v : Voice) : Voice :=
  { v with accum := (if v.dir then v.accum - v.freqCount else v.accum + v.freqCount) &&& mask }

/-- The boundary is crossed: not inhibited by LEI (R193), and above the end going forward (R194) or below the start
going in reverse (R195), as unsigned numbers. -/
def crossed (v : Voice) : Bool :=
  !v.lei && (if v.dir then decide (v.accum.toNat < v.start.toNat) else decide (v.endAddr.toNat < v.accum.toNat))

/-- The interrupt request of a crossing (R196). -/
def requestIrq (v : Voice) : Voice := if v.irqe then setIrq v else v

/-- The accumulator a wrap lands on: R199 going forward, R200 in reverse. -/
def wrapTarget (mask : Word) (v : Voice) : Word :=
  (if v.dir then v.endAddr - (v.start - v.accum) else v.start + (v.accum - v.endAddr)) &&& mask

/-- The accumulator a reflection lands on: R202 going forward, R203 in reverse. -/
def reflectTarget (mask : Word) (v : Voice) : Word :=
  (if v.dir then v.start + (v.start - v.accum) else v.endAddr - (v.accum - v.endAddr)) &&& mask

/-- The one transition of a crossing, by the loop mode as read at that moment (R197 to R203). -/
def resolve (mask : Word) (v : Voice) : Voice :=
  match v.loopMode with
  | .none => setStop0 v
  | .unidirectional => { v with accum := wrapTarget mask v }
  | .transWave => spendOneShot { v with accum := wrapTarget mask v }
  | .bidirectional =>
    if v.dir then clearDir { v with accum := reflectTarget mask v }
    else setDir { v with accum := reflectTarget mask v }

/-- `Boundary(v)` (R193 to R203): on a crossing, the interrupt request, then one transition. -/
def boundary (mask : Word) (v : Voice) : Voice :=
  if crossed v then resolve mask (requestIrq v) else v

/-- The degenerate-loop check at pass entry: START equal to END stops the voice (R205, R224). -/
def stopIfDegenerate (v : Voice) : Voice := if v.start = v.endAddr then setStop0 v else v

end Sys2Proof.Machine
end

