-- ==== Sys2Proof/Machine/Mixer.lean ====
section
/-! DEFINITION. The voice mixer and GENERATE (spec/45_mixer.md). -/

namespace Sys2Proof.Machine

/-- One slot of the two output buffers: an i32 for each channel (R220). -/
structure Slot where
  left : Word
  right : Word
deriving DecidableEq, Repr

/-- The path a voice takes for a whole batch (R224): silent when its region is absent, else u-law or PCM on the memory
of its region. -/
inductive Path where
  | silent
  | sound (law : Bool) (m : Memory)
deriving DecidableEq, Repr

def pathOf (p : Params) (v : Voice) : Path :=
  match regionOf p v.bank with
  | none => .silent
  | some m => .sound v.cmpd m

/-- What a voice adds to one channel: `asr(wrap32(y * VOL[vol >> 4]), 11)` (R227, R228). -/
def contribution (t : VolumeLookup) (y : Int) (vol : Hword) : Int :=
  asr (wrap32 (y * (volume t (vol >>> 4).toNat).toNat)) 11

/-- Accumulation into one slot, modulo 2^32 (R228), with the volumes the voice holds now. -/
def addTo (t : VolumeLookup) (y : Int) (v : Voice) (slot : Slot) : Slot :=
  ⟨slot.left + BitVec.ofInt 32 (contribution t y v.lvol), slot.right + BitVec.ofInt 32 (contribution t y v.rvol)⟩

/-- What runs through a voice's batch: the voice, and how many free filter values have been drawn. -/
structure Run where
  voice : Voice
  draws : Nat
deriving DecidableEq, Repr

/-- One sample of a voice that is not stopped, in the order of R226: fetch at the accumulator before the advance,
advance, filter with the coefficients before this sample's envelope step, envelope step, accumulate with the volumes
after it, boundary test on the advanced accumulator. The silent path omits fetch, filter and accumulation (R233). -/
def sample (p : Params) (chip : Nat) (path : Path) (r : Run) (slot : Slot) : Run × Slot :=
  let mask := p.variant.accumMask
  match path with
  | .silent => (⟨boundary mask (envelope (advance mask r.voice) 1), r.draws⟩, slot)
  | .sound law m =>
    let x := fetchInterp p chip law m r.voice r.voice.accum
    let f := filter p.filterOverflow (advance mask r.voice) x r.draws
    let v := envelope f.voice 1
    (⟨boundary mask v, f.draws⟩, addTo p.volumeLookup f.y v slot)

/-- The sample loop of R226 over the slots still to fill. A voice that is stopped, at entry or by now, adds nothing to
the rest, and the envelope runs once more for all of them (R229). -/
def playBatch (p : Params) (chip : Nat) (path : Path) : Run → List Slot → Run × List Slot
  | r, [] => (r, [])
  | r, slot :: slots =>
    if r.voice.stopped then (⟨envelope r.voice (slots.length + 1), r.draws⟩, slot :: slots)
    else
      let (r1, slot1) := sample p chip path r slot
      let (r2, slots2) := playBatch p chip path r1 slots
      (r2, slot1 :: slots2)

/-- Pass entry: the degenerate-loop check (R224), then the entry mask (R225), for a stopped voice too. -/
def enterPass (mask : Word) (v : Voice) : Voice :=
  let v1 := stopIfDegenerate v
  { v1 with accum := v1.accum &&& mask }

/-- `VoiceBatch(v, N, L, R)` (R224 to R229): the path is chosen once, at entry. -/
def voiceBatch (s : State) (v : VoiceIx) (slots : List Slot) : State × List Slot :=
  let entered := enterPass s.params.variant.accumMask (s.voice v)
  let (r, slots1) := playBatch s.params s.chips (pathOf s.params entered) ⟨entered, s.filterDraws⟩ slots
  ({ s.setVoice v r.voice with filterDraws := r.draws }, slots1)

/-- The voices in the given order, each for the whole batch (R223). -/
def mixVoices (s : State) (slots : List Slot) : List VoiceIx → State × List Slot
  | [] => (s, slots)
  | v :: vs =>
    let (s1, slots1) := voiceBatch s v slots
    mixVoices s1 slots1 vs

/-- `GENERATE(N)` (R220): nothing but two empty buffers for N = 0 (R221); else zeroed buffers (R222), the active
voices in ascending order (R223), the arbiter (R230), and the buffers returned as they stand (R231). -/
def generate (n : Nat) (s : State) : State :=
  if n = 0 then s.emit (.buffers [] [])
  else
    let (s1, slots) := mixVoices s (List.replicate n ⟨0, 0⟩) s.activeVoices
    (arbitrate s1).emit (.buffers (slots.map Slot.left) (slots.map Slot.right))

/-- GENERATE never refuses and never faults (R233). -/
def execGenerate (n : Nat) (s : State) : Host.Outcome State Fault Refusal := .next (generate n s)

end Sys2Proof.Machine
end

