-- ==== Sys2Proof/Machine/System.lean ====
section
/-! DEFINITION. Construction and the reserved call code (spec/70_reset_and_hazards.md R350, spec/30_encoding.md R106). -/

namespace Sys2Proof.Machine

/-- `CONSTRUCT(params)`: a chip in its reset state, built with the operand's parameters; no notification (R350). What
the host has seen and still means to do is no part of the chip and stays; the run is a new one (log 14). -/
def construct (p : Params) (s : State) : State :=
  { State.fresh p with
    portReads := s.portReads
    filterDraws := s.filterDraws
    chips := s.chips + 1
    trace := s.trace
    hostOps := s.hostOps }

/-- `CONSTRUCT` (R350). -/
def execConstruct (p : Params) (s : State) : Host.Outcome State Fault Refusal := .next (construct p s)

/-- `CALL.RSV`: code 111 is reserved and refused (R106, R109). -/
def execCallRsv (_s : State) : Host.Outcome State Fault Refusal := .refused .reservedCall

end Sys2Proof.Machine
end

