-- ==== Sys2Proof/Machine/TestGroup.lean ====
section
/-! DEFINITION. The test page group, keys 0x60 to 0x7F and 0x20 to 0x3F: only PAGE is written, only IRQV and PAGE are read
(spec/47_register_bus.md R257, R270, R285, R286, R299). `g` is key bit 4 and `r` the low bits of the register number,
neither of which the meaning depends on. -/

namespace Sys2Proof.Machine

/-- `WR.T.RSV0` (R270): the write changes nothing. -/
def execWrTRsv0 (_g : BitVec 1) (_r : BitVec 3) (_d : Word) (s : State) : Host.Outcome State Fault Refusal := .next s

/-- `WR.T.RSV8` (R270): the write changes nothing. -/
def execWrTRsv8 (_g : BitVec 1) (_r : BitVec 2) (_d : Word) (s : State) : Host.Outcome State Fault Refusal := .next s

/-- `WR.T.RSVC` (R270): the write changes nothing. -/
def execWrTRsvC (_g : BitVec 1) (_r : BitVec 1) (_d : Word) (s : State) : Host.Outcome State Fault Refusal := .next s

/-- `WR.T.IRQV` (R270): the write changes nothing. -/
def execWrTIrqv (_g : BitVec 1) (_d : Word) (s : State) : Host.Outcome State Fault Refusal := .next s

/-- `WR.T.PAGE` (R257). -/
def execWrTPage (_g : BitVec 1) (d : Word) (s : State) : Host.Outcome State Fault Refusal := .next (storePage d s)

/-- `RD.T.RSV0` (R299): returns 0, no side effect. -/
def execRdTRsv0 (_g : BitVec 1) (_r : BitVec 3) (s : State) : Host.Outcome State Fault Refusal := .next (returned (0, s))

/-- `RD.T.RSV8` (R299): returns 0, no side effect. -/
def execRdTRsv8 (_g : BitVec 1) (_r : BitVec 2) (s : State) : Host.Outcome State Fault Refusal := .next (returned (0, s))

/-- `RD.T.RSVC` (R299): returns 0, no side effect. -/
def execRdTRsvC (_g : BitVec 1) (_r : BitVec 1) (s : State) : Host.Outcome State Fault Refusal := .next (returned (0, s))

/-- `RD.T.IRQV` (R285). -/
def execRdTIrqv (_g : BitVec 1) (s : State) : Host.Outcome State Fault Refusal := .next (returned (acknowledge s))

/-- `RD.T.PAGE` (R286). -/
def execRdTPage (_g : BitVec 1) (s : State) : Host.Outcome State Fault Refusal := .next (returned (loadPage s, s))

end Sys2Proof.Machine
end

