-- ==== Sys2Proof/Machine/Dispatch.lean ====
section
/-! DEFINITION. What each operation does: one arm per row of spec/opcode_table.json. -/

namespace Sys2Proof.Machine

def exec (i : Instr) (s : State) : Host.Outcome State Fault Refusal :=
  match i with
  | .wrLCr d => Sys2Proof.Machine.execWrLCr d s
  | .wrLFc d => Sys2Proof.Machine.execWrLFc d s
  | .wrLLvol d => Sys2Proof.Machine.execWrLLvol d s
  | .wrLLvramp d => Sys2Proof.Machine.execWrLLvramp d s
  | .wrLRvol d => Sys2Proof.Machine.execWrLRvol d s
  | .wrLRvramp d => Sys2Proof.Machine.execWrLRvramp d s
  | .wrLEcount d => Sys2Proof.Machine.execWrLEcount d s
  | .wrLK2 d => Sys2Proof.Machine.execWrLK2 d s
  | .wrLK2ramp d => Sys2Proof.Machine.execWrLK2ramp d s
  | .wrLK1 d => Sys2Proof.Machine.execWrLK1 d s
  | .wrLK1ramp d => Sys2Proof.Machine.execWrLK1ramp d s
  | .wrLActv d => Sys2Proof.Machine.execWrLActv d s
  | .wrLMode d => Sys2Proof.Machine.execWrLMode d s
  | .wrLPar d => Sys2Proof.Machine.execWrLPar d s
  | .wrLIrqv d => Sys2Proof.Machine.execWrLIrqv d s
  | .wrLPage d => Sys2Proof.Machine.execWrLPage d s
  | .wrHCr d => Sys2Proof.Machine.execWrHCr d s
  | .wrHStart d => Sys2Proof.Machine.execWrHStart d s
  | .wrHEnd d => Sys2Proof.Machine.execWrHEnd d s
  | .wrHAccum d => Sys2Proof.Machine.execWrHAccum d s
  | .wrHO4n1 d => Sys2Proof.Machine.execWrHO4n1 d s
  | .wrHO3n1 d => Sys2Proof.Machine.execWrHO3n1 d s
  | .wrHO3n2 d => Sys2Proof.Machine.execWrHO3n2 d s
  | .wrHO2n1 d => Sys2Proof.Machine.execWrHO2n1 d s
  | .wrHO2n2 d => Sys2Proof.Machine.execWrHO2n2 d s
  | .wrHO1n1 d => Sys2Proof.Machine.execWrHO1n1 d s
  | .wrHWSt d => Sys2Proof.Machine.execWrHWSt d s
  | .wrHWEnd d => Sys2Proof.Machine.execWrHWEnd d s
  | .wrHLrEnd d => Sys2Proof.Machine.execWrHLrEnd d s
  | .wrHPar d => Sys2Proof.Machine.execWrHPar d s
  | .wrHIrqv d => Sys2Proof.Machine.execWrHIrqv d s
  | .wrHPage d => Sys2Proof.Machine.execWrHPage d s
  | .rdLCr => Sys2Proof.Machine.execRdLCr s
  | .rdLFc => Sys2Proof.Machine.execRdLFc s
  | .rdLLvol => Sys2Proof.Machine.execRdLLvol s
  | .rdLLvramp => Sys2Proof.Machine.execRdLLvramp s
  | .rdLRvol => Sys2Proof.Machine.execRdLRvol s
  | .rdLRvramp => Sys2Proof.Machine.execRdLRvramp s
  | .rdLEcount => Sys2Proof.Machine.execRdLEcount s
  | .rdLK2 => Sys2Proof.Machine.execRdLK2 s
  | .rdLK2ramp => Sys2Proof.Machine.execRdLK2ramp s
  | .rdLK1 => Sys2Proof.Machine.execRdLK1 s
  | .rdLK1ramp => Sys2Proof.Machine.execRdLK1ramp s
  | .rdLActv => Sys2Proof.Machine.execRdLActv s
  | .rdLMode => Sys2Proof.Machine.execRdLMode s
  | .rdLPar => Sys2Proof.Machine.execRdLPar s
  | .rdLIrqv => Sys2Proof.Machine.execRdLIrqv s
  | .rdLPage => Sys2Proof.Machine.execRdLPage s
  | .rdHCr => Sys2Proof.Machine.execRdHCr s
  | .rdHStart => Sys2Proof.Machine.execRdHStart s
  | .rdHEnd => Sys2Proof.Machine.execRdHEnd s
  | .rdHAccum => Sys2Proof.Machine.execRdHAccum s
  | .rdHO4n1 => Sys2Proof.Machine.execRdHO4n1 s
  | .rdHO3n1 => Sys2Proof.Machine.execRdHO3n1 s
  | .rdHO3n2 => Sys2Proof.Machine.execRdHO3n2 s
  | .rdHO2n1 => Sys2Proof.Machine.execRdHO2n1 s
  | .rdHO2n2 => Sys2Proof.Machine.execRdHO2n2 s
  | .rdHO1n1 => Sys2Proof.Machine.execRdHO1n1 s
  | .rdHWSt => Sys2Proof.Machine.execRdHWSt s
  | .rdHWEnd => Sys2Proof.Machine.execRdHWEnd s
  | .rdHLrEnd => Sys2Proof.Machine.execRdHLrEnd s
  | .rdHPar => Sys2Proof.Machine.execRdHPar s
  | .rdHIrqv => Sys2Proof.Machine.execRdHIrqv s
  | .rdHPage => Sys2Proof.Machine.execRdHPage s
  | .wrTRsv0 g r d => Sys2Proof.Machine.execWrTRsv0 g r d s
  | .wrTRsv8 g r d => Sys2Proof.Machine.execWrTRsv8 g r d s
  | .wrTRsvC g r d => Sys2Proof.Machine.execWrTRsvC g r d s
  | .wrTIrqv g d => Sys2Proof.Machine.execWrTIrqv g d s
  | .wrTPage g d => Sys2Proof.Machine.execWrTPage g d s
  | .rdTRsv0 g r => Sys2Proof.Machine.execRdTRsv0 g r s
  | .rdTRsv8 g r => Sys2Proof.Machine.execRdTRsv8 g r s
  | .rdTRsvC g r => Sys2Proof.Machine.execRdTRsvC g r s
  | .rdTIrqv g => Sys2Proof.Machine.execRdTIrqv g s
  | .rdTPage g => Sys2Proof.Machine.execRdTPage g s
  | .generate n => Sys2Proof.Machine.execGenerate n s
  | .bankW voice value => Sys2Proof.Machine.execBankW voice value s
  | .bus8Wb a b => Sys2Proof.Machine.execBus8Wb a b s
  | .bus8Rb a => Sys2Proof.Machine.execBus8Rb a s
  | .bus16W off data lanes => Sys2Proof.Machine.execBus16W off data lanes s
  | .bus16R off => Sys2Proof.Machine.execBus16R off s
  | .construct p => Sys2Proof.Machine.execConstruct p s
  | .callRsv => Sys2Proof.Machine.execCallRsv s

end Sys2Proof.Machine
end

