-- ==== Sys2Proof/Machine/HostQueue.lean ====
section
/-! DEFINITION. Where a step finds its operation: the queue of call frames the host has issued (log 1), in the order
it issued them (spec/20_memory.md R82). -/

namespace Sys2Proof.Machine

/-- The next frame, and the state with that frame taken off the queue. -/
def nextFrame (s : State) : Option (List Byte × State) :=
  match s.hostOps with
  | [] => none
  | frame :: rest => some (frame, { s with hostOps := rest })

/-- The operation a frame stands for now: the page group is read from `currentPage` as it executes (R91, R92). -/
def decodeNow (s : State) (frame : List Byte) : Except DecodeError Instr := decode s.groupBits frame

/-- `s` with the operation of an opcode-table number issued next. A register operation reaches its row in its own page
group only (R92), so the group bits of `currentPage` are set to the key's; the selected voice stays. -/
def issueWord (s : State) (nbits w : Nat) : State :=
  let (g, frame) := tableFrame nbits w
  let page := if (frame.headD 0).getLsbD 7 then s.currentPage else g ++ s.sel
  { s with currentPage := page, hostOps := frame :: s.hostOps }

end Sys2Proof.Machine
end

