-- ==== Sys2Proof/Machine/Step.lean ====
section
/-! DEFINITION. One step: the next host operation, run to completion (spec/00_scope.md R14, spec/20_memory.md R82). -/

namespace Sys2Proof.Machine

/-- With no operation waiting, nothing changes (R338, R354). Otherwise the next frame is taken off the queue and its
operation runs; a frame that is none is refused. -/
def step (s : State) : Host.Outcome State Fault Refusal :=
  match nextFrame s with
  | none => .next s
  | some (frame, s1) =>
    match decodeNow s frame with
    | .error e => .refused (.badFrame e)
    | .ok i => exec i s1

/-- The state in which the next step runs the operation of an opcode-table number (log 1, log 3). -/
def State.withFetchWord (s : State) (nbits w : Nat) : State := issueWord s nbits w

end Sys2Proof.Machine
end

