-- ==== Sys2Proof/Safety.lean ====
section
/-! DEFINITION. The terms claims are stated in: what a safe state is, which operations the model refuses, and what it
means for an operation to change one thing and leave the rest. -/

namespace Sys2Proof.Machine

/-! ## What stays -/

/-- Every register of the chip outside the voices is the same in `t` as in `s`, and so are the parameters, the model's
own counters and the operations still to come. The trace is not spoken of. -/
def SameChip (s t : State) : Prop :=
  t.params = s.params ∧ t.activeVoiceCount = s.activeVoiceCount ∧ t.currentPage = s.currentPage
    ∧ t.irqVector = s.irqVector ∧ t.mode = s.mode ∧ t.wst = s.wst ∧ t.wend = s.wend ∧ t.lrend = s.lrend
    ∧ t.writeLatch = s.writeLatch ∧ t.readLatch = s.readLatch ∧ t.portReads = s.portReads
    ∧ t.filterDraws = s.filterDraws ∧ t.chips = s.chips ∧ t.hostOps = s.hostOps

/-- The operation completes, voice `v` becomes `x`, and nothing else at all changes: no other voice, no register of the
chip, no output. -/
def WritesVoice (i : Instr) (s : State) (v : VoiceIx) (x : Voice) : Prop :=
  ∃ t, exec i s = .next t ∧ t.voice v = x ∧ (∀ w, w ≠ v → t.voice w = s.voice w) ∧ SameChip s t ∧ t.trace = s.trace

/-- The operation completes, gives the host the register value `x`, and changes nothing else. -/
def ReturnsOnly (i : Instr) (s : State) (x : Word) : Prop :=
  exec i s = .next { s with trace := s.trace ++ [.readValue x] }

/-- Writing with `w` and then reading with `r` gives the host back `d` (R99). -/
def ReadsBack (w r : Instr) (s : State) (d : Word) : Prop :=
  ∃ t u, exec w s = .next t ∧ exec r t = .next u ∧ u.trace.getLast? = some (.readValue d)

/-! ## Refusals -/

/-- The operations the model refuses, and by what name (R102, R109, R304). -/
inductive Refuses : Instr → State → Refusal → Prop where
  | reservedCall (s : State) : Refuses .callRsv s .reservedCall
  | bankW (voice : Nat) (value : Word) (s : State) (h : 31 < voice) : Refuses (.bankW voice value) s .voiceOutOfRange
  | bus8Wb (a : Nat) (b : Byte) (s : State) (h : s.params.variant = .es5505) : Refuses (.bus8Wb a b) s .wrongBusWidth
  | bus8Rb (a : Nat) (s : State) (h : s.params.variant = .es5505) : Refuses (.bus8Rb a) s .wrongBusWidth
  | bus16W (off : Nat) (data : Hword) (lanes : BitVec 2) (s : State) (h : s.params.variant = .es5506) :
      Refuses (.bus16W off data lanes) s .wrongBusWidth
  | bus16R (off : Nat) (s : State) (h : s.params.variant = .es5506) : Refuses (.bus16R off) s .wrongBusWidth

/-! ## Which operations may do what -/

/-- The operation writes the control register of the selected voice: directly, by the lane-3 byte that commits to it, or
through the 16-bit map (R242, R300, R302). -/
def WritesCr (i : Instr) (s : State) : Prop :=
  (∃ d, i = .wrLCr d) ∨ (∃ d, i = .wrHCr d)
    ∨ (∃ a b, i = .bus8Wb a b ∧ busLane a = 3 ∧ s.regNow (busReg a) = .cr)
    ∨ (∃ off data lanes l, i = .bus16W off data lanes ∧ busLine s.params off = some l ∧ s.regNow l.reg = .cr)

/-- The operation reads IRQV, and so acknowledges: directly, by a lane-0 byte, or through the 16-bit map (R80, R326). -/
def Acknowledges (i : Instr) (s : State) : Prop :=
  i = .rdLIrqv ∨ i = .rdHIrqv ∨ (∃ g, i = .rdTIrqv g)
    ∨ (∃ a, i = .bus8Rb a ∧ busLane a = 0 ∧ s.regNow (busReg a) = .irqv)
    ∨ (∃ off l, i = .bus16R off ∧ busLine s.params off = some l ∧ s.regNow l.reg = .irqv)

/-! ## Safe states -/

/-- What every rule keeps of a voice's stored fields: FC, START and END hold no bit outside their masks (R45 to R47), and
a coefficient ramp's bits 30:8 are zero (R52). -/
def VoiceSafe (p : Params) (v : Voice) : Prop :=
  v.freqCount &&& ~~~p.fcMask = 0 ∧ v.start &&& ~~~p.startMask = 0 ∧ v.endAddr &&& ~~~p.endMask = 0
    ∧ v.k1ramp &&& 0x7FFFFF00 = 0 ∧ v.k2ramp &&& 0x7FFFFF00 = 0

/-- A safe state: well-formed parameters (the regions' memories among them canonical), a legal interrupt vector, free or
the index of a voice (R26), and every voice safe. -/
def Safe (s : State) : Prop :=
  s.params.wf = true ∧ (s.irqVector = 0x80 ∨ s.irqVector.toNat < 32) ∧ ∀ v, VoiceSafe s.params (s.voice v)

/-! ## Parts of a pass -/

/-- The batch voice `v` would play by itself, on zeroed buffers, in the pass that starts at `s`, when `draws` free
filter values have been drawn before it (R224 to R229). -/
def soloBatch (s : State) (v : VoiceIx) (n draws : Nat) : Run × List Slot :=
  let entered := enterPass s.params.variant.accumMask (s.voice v)
  playBatch s.params s.chips (pathOf s.params entered) ⟨entered, draws⟩ (List.replicate n ⟨0, 0⟩)

/-- How many free filter values have been drawn when `k` voices of that pass have played, each by itself, going on where
the one before it stopped (R160, R223; log 8). -/
def drawsBefore (s : State) (n : Nat) : Nat → Nat
  | 0 => s.filterDraws
  | k + 1 => (soloBatch s (BitVec.ofNat 5 k) n (drawsBefore s n k)).1.draws

/-- A voice with its filter history set to 0: what the loop and envelope stages decide of it (R233). -/
def withoutHistory (v : Voice) : Voice :=
  { v with o1n1 := 0, o2n1 := 0, o2n2 := 0, o3n1 := 0, o3n2 := 0, o4n1 := 0 }

end Sys2Proof.Machine
end

