-- ==== Sys2Proof/Certificates/Slice0/Obligations.lean ====
section
/-! DEFINITION. The statements for the provers. -/

open Sys2Proof Sys2Proof.Machine


/-- For every well-formed operation i and every value g of the page-group bits in which i is reached (any g for a CALL
operation, the group of its own key for a register operation), decoding the frame that encode writes for i gives i.
The frame layout is the model's choice (log 2); the keys in it are those of R91, R92 and R106. (30_encoding.md R91,
R92, R106) -/
def Obligations.DecodeOfEncode : Prop :=
  ∀ (g : BitVec 2) (i : Instr), i.wf = true → reachedIn g i = true → decode g (encode i) = .ok i

/-- If a frame decodes to i while the page-group bits are g, then i is well formed, i is reached in g, and the frame is
exactly the one encode writes for i: no two frames stand for one operation in one group, and no bit of a frame is
ignored. The frame layout is the model's choice (log 2). (30_encoding.md R91, R92, R106, R107) -/
def Obligations.EncodeOfDecode : Prop :=
  ∀ (g : BitVec 2) (frame : List Byte) (i : Instr), decode g frame = .ok i →
    i.wf = true ∧ reachedIn g i = true ∧ encode i = frame

/-- The numbers 0x42, 0x53, 0x77, 0x6F, 0x0E, 0x1C, 0x3D (REG keys, 8 bits) and 0b001, 0b110, 0b111 (CALL codes, 3 bits)
decode to WR.L.LVOL, WR.H.ACCUM, WR.T.RSV0 (register 7), WR.T.PAGE, RD.L.IRQV, RD.H.LR_END, RD.T.RSVC (register 13),
BANK_W, CONSTRUCT and CALL.RSV, with zero operands. How a number of the table is split between its two formats is the
model's choice (log 3). (30_encoding.md R93, R94, R95, R106, R113) -/
def Obligations.TableKeysDecode : Prop :=
  decodeTableWord 8 0x42 = some (.wrLLvol 0) ∧ decodeTableWord 8 0x53 = some (.wrHAccum 0)
    ∧ decodeTableWord 8 0x77 = some (.wrTRsv0 1 7 0) ∧ decodeTableWord 8 0x6F = some (.wrTPage 0 0)
    ∧ decodeTableWord 8 0x0E = some .rdLIrqv ∧ decodeTableWord 8 0x1C = some .rdHLrEnd
    ∧ decodeTableWord 8 0x3D = some (.rdTRsvC 1 1) ∧ decodeTableWord 3 1 = some (.bankW 0 0)
    ∧ (∃ p, decodeTableWord 3 6 = some (.construct p)) ∧ decodeTableWord 3 7 = some .callRsv

/-- When the first waiting frame decodes, in the group currentPage selects now, to an operation i, step is exec of i on
the state with that frame taken off the queue. When it does not decode, step refuses with the decoder's reason. With
an empty queue step answers the same state. The queue and the frame layout are the model's (log 1, log 2).
(20_memory.md R82, 00_scope.md R14, 30_encoding.md R92, 60_exceptions.md R338, 70_reset_and_hazards.md R354) -/
def Obligations.StepRunsDecodedOperation : Prop :=
  (∀ (s : State) (frame : List Byte) (rest : List (List Byte)) (i : Instr), s.hostOps = frame :: rest →
      decode (s.currentPage.extractLsb' 5 2) frame = .ok i → step s = exec i { s with hostOps := rest })
    ∧ (∀ (s : State) (frame : List Byte) (rest : List (List Byte)) (e : DecodeError), s.hostOps = frame :: rest →
      decode (s.currentPage.extractLsb' 5 2) frame = .error e → step s = .refused (.badFrame e))
    ∧ ∀ s : State, s.hostOps = [] → step s = .next s

/-- exec refuses an operation, and with which name, exactly when it is BANK_W with a voice index above 31, CALL code 111,
or a bus operation of the width the variant does not have. Every other operation completes in every state. GENERATE(0)
completes and changes nothing but giving the host two empty buffers. (R109) -/
def Obligations.RefusedExactlyElseCompletes : Prop :=
  (∀ (i : Instr) (s : State) (r : Refusal), exec i s = .refused r ↔ Refuses i s r)
    ∧ (∀ (i : Instr) (s : State), (∀ r, ¬ Refuses i s r) → ∃ t, exec i s = .next t)
    ∧ (∀ s : State, exec .callRsv s = .refused .reservedCall)
    ∧ ∀ s : State, exec (.generate 0) s = .next { s with trace := s.trace ++ [.buffers [] []] }

/-- Whatever operation completes: the queue of operations to come is as it was, the trace of outputs is only appended to,
and the parameters (regions, tables, masks, clock, map) are unchanged unless the operation is CONSTRUCT. That
CONSTRUCT keeps the queue and the trace is the model's choice (log 14). (00_scope.md R5, R12, R31, R78, R328) -/
def Obligations.ParametersAndQueueStand : Prop :=
  ∀ (i : Instr) (s t : State), exec i s = .next t →
    t.hostOps = s.hostOps ∧ s.trace <+: t.trace ∧ (t.params = s.params ∨ ∃ p, i = .construct p)

/-- WR.L.CR and WR.H.CR complete with control = d[15:0] AND 0xFFFB in the selected voice and change nothing else, so an
interrupt already latched stays latched; LEI is 0 after it, the IRQ and stop bits are as written, and with both stop
bits written 0 the voice is not stopped. (R242) -/
def Obligations.ControlWriteForcesInhibitOff : Prop :=
  ∀ (d : Word) (s : State),
    let v := { s.voice s.sel with control := d.setWidth 16 &&& 0xFFFB }
    WritesVoice (.wrLCr d) s s.sel v ∧ WritesVoice (.wrHCr d) s s.sel v ∧ v.lei = false
      ∧ v.irq = d.getLsbD 7 ∧ (v.stopped = (d.getLsbD 0 || d.getLsbD 1))

/-- WR.L.LVOL, WR.L.RVOL, WR.L.K1 and WR.L.K2 store d mod 2^16; WR.L.FC, WR.H.START and WR.H.END store d AND the parameter
mask; WR.H.ACCUM stores d whole; each in the named field of the selected voice, changing nothing else. (R243, R244,
R246, R249, R251, R258, R259, R260) -/
def Obligations.LevelAndAddressWrites : Prop :=
  ∀ (d : Word) (s : State),
    let low : Hword := BitVec.ofNat 16 d.toNat
    WritesVoice (.wrLLvol d) s s.sel { s.voice s.sel with lvol := low }
      ∧ WritesVoice (.wrLRvol d) s s.sel { s.voice s.sel with rvol := low }
      ∧ WritesVoice (.wrLK1 d) s s.sel { s.voice s.sel with k1 := low }
      ∧ WritesVoice (.wrLK2 d) s s.sel { s.voice s.sel with k2 := low }
      ∧ WritesVoice (.wrLFc d) s s.sel { s.voice s.sel with freqCount := d &&& s.params.fcMask }
      ∧ WritesVoice (.wrHStart d) s s.sel { s.voice s.sel with start := d &&& s.params.startMask }
      ∧ WritesVoice (.wrHEnd d) s s.sel { s.voice s.sel with endAddr := d &&& s.params.endMask }
      ∧ WritesVoice (.wrHAccum d) s s.sel { s.voice s.sel with accum := d }

/-- WR.L.LVRAMP and WR.L.RVRAMP store d[15:8]; WR.L.K1RAMP and WR.L.K2RAMP store (d[0] << 31) | d[15:8]; WR.L.ECOUNT
stores d mod 512 and sets filtCount to 0, whatever they held; each in the selected voice, changing nothing else.
(R245, R247, R248, R250, R252) -/
def Obligations.RampAndEnvelopeCountWrites : Prop :=
  ∀ (d : Word) (s : State),
    let slope : Byte := BitVec.ofNat 8 (d.toNat / 256)
    let kSlope : Word := ((d &&& 1) <<< 31) ||| ((d >>> 8) &&& 0xFF)
    WritesVoice (.wrLLvramp d) s s.sel { s.voice s.sel with lvramp := slope }
      ∧ WritesVoice (.wrLRvramp d) s s.sel { s.voice s.sel with rvramp := slope }
      ∧ WritesVoice (.wrLK1ramp d) s s.sel { s.voice s.sel with k1ramp := kSlope }
      ∧ WritesVoice (.wrLK2ramp d) s s.sel { s.voice s.sel with k2ramp := kSlope }
      ∧ WritesVoice (.wrLEcount d) s s.sel { s.voice s.sel with ecount := BitVec.ofNat 9 d.toNat, filtCount := 0 }

/-- WR.H.O4N1, O3N1, O3N2, O2N1, O2N2 and O1N1 store the signed 18-bit value of d[17:0] as an i32 in the named cell of the
selected voice and change nothing else. (R261, R262, R263, R264, R265, R266) -/
def Obligations.HistoryWrites : Prop :=
  ∀ (d : Word) (s : State),
    let low := d.toNat % 262144
    let cell : Word := BitVec.ofInt 32 (if low < 131072 then (low : Int) else (low : Int) - 262144)
    WritesVoice (.wrHO4n1 d) s s.sel { s.voice s.sel with o4n1 := cell }
      ∧ WritesVoice (.wrHO3n1 d) s s.sel { s.voice s.sel with o3n1 := cell }
      ∧ WritesVoice (.wrHO3n2 d) s s.sel { s.voice s.sel with o3n2 := cell }
      ∧ WritesVoice (.wrHO2n1 d) s s.sel { s.voice s.sel with o2n1 := cell }
      ∧ WritesVoice (.wrHO2n2 d) s s.sel { s.voice s.sel with o2n2 := cell }
      ∧ WritesVoice (.wrHO1n1 d) s s.sel { s.voice s.sel with o1n1 := cell }

/-- WR.L.ACTV completes with activeVoiceCount = d mod 32 and one SampleRate notification of MASTER_CLOCK_HZ / (16 * (count
+ 1)), truncated, whatever the count was before; nothing else changes. (R253) -/
def Obligations.ActiveCountWriteAnnouncesRate : Prop :=
  ∀ (d : Word) (s : State), exec (.wrLActv d) s = .next { s with
      activeVoiceCount := BitVec.ofNat 5 d.toNat
      trace := s.trace ++ [.sampleRate (BitVec.ofNat 32 (s.params.masterClockHz.toNat / (16 * (d.toNat % 32 + 1))))] }

/-- WR.L.MODE stores d mod 32; WR.H.W_ST, W_END, LR_END and WR.L.PAGE, WR.H.PAGE, WR.T.PAGE store d mod 128; nothing else
changes, the bus latches and every voice among it. After a PAGE write every access selects voice d[4:0] and the group
of d[6:5]. GENERATE(N) does the same whatever MODE, W_ST, W_END and LR_END hold, and leaves them as they are. (R254,
R257, R267, R268, R269) -/
def Obligations.ChipRegisterWrites : Prop :=
  ∀ (d : Word) (s : State) (g : BitVec 1),
    let low := BitVec.ofNat 7 d.toNat
    let paged : State := { s with currentPage := low }
    exec (.wrLMode d) s = .next { s with mode := BitVec.ofNat 5 d.toNat }
      ∧ exec (.wrHWSt d) s = .next { s with wst := low } ∧ exec (.wrHWEnd d) s = .next { s with wend := low }
      ∧ exec (.wrHLrEnd d) s = .next { s with lrend := low }
      ∧ exec (.wrLPage d) s = .next paged ∧ exec (.wrHPage d) s = .next paged ∧ exec (.wrTPage g d) s = .next paged
      ∧ paged.sel.toNat = d.toNat % 32
      ∧ (∀ reg, paged.regNow reg = regAt (pageGroup (BitVec.ofNat 2 (d.toNat / 32))) reg)
      ∧ ∀ (n : Nat) (m : BitVec 5) (a b c : BitVec 7), ∃ t, exec (.generate n) s = .next t
        ∧ exec (.generate n) { s with mode := m, wst := a, wend := b, lrend := c }
          = .next { t with mode := m, wst := a, wend := b, lrend := c }

/-- WR.L.PAR, WR.H.PAR, WR.L.IRQV, WR.H.IRQV, WR.T.RSV0, WR.T.RSV8, WR.T.RSVC and WR.T.IRQV complete and leave the whole
state as it was: no acknowledgement, no call of the port. (R255, R256, R270) -/
def Obligations.IgnoredWrites : Prop :=
  ∀ (d : Word) (s : State) (g : BitVec 1) (r3 : BitVec 3) (r2 : BitVec 2) (r1 : BitVec 1),
    exec (.wrLPar d) s = .next s ∧ exec (.wrHPar d) s = .next s ∧ exec (.wrLIrqv d) s = .next s
      ∧ exec (.wrHIrqv d) s = .next s ∧ exec (.wrTRsv0 g r3 d) s = .next s ∧ exec (.wrTRsv8 g r2 d) s = .next s
      ∧ exec (.wrTRsvC g r1 d) s = .next s ∧ exec (.wrTIrqv g d) s = .next s

/-- RD.L.CR, RD.H.CR, RD.L.FC, RD.L.LVOL, RD.L.RVOL, RD.L.ECOUNT, RD.L.K2, RD.L.K1, RD.H.START, RD.H.END and RD.H.ACCUM
give the host the selected voice's field as a u32 of the same number and change nothing else. (R271, R272, R273, R275,
R277, R278, R280, R287, R288, R289) -/
def Obligations.VoiceFieldReads : Prop :=
  ∀ s : State,
    let v := s.voice s.sel
    ReturnsOnly .rdLCr s (BitVec.ofNat 32 v.control.toNat) ∧ ReturnsOnly .rdHCr s (BitVec.ofNat 32 v.control.toNat)
      ∧ ReturnsOnly .rdLLvol s (BitVec.ofNat 32 v.lvol.toNat) ∧ ReturnsOnly .rdLRvol s (BitVec.ofNat 32 v.rvol.toNat)
      ∧ ReturnsOnly .rdLEcount s (BitVec.ofNat 32 v.ecount.toNat) ∧ ReturnsOnly .rdLK2 s (BitVec.ofNat 32 v.k2.toNat)
      ∧ ReturnsOnly .rdLK1 s (BitVec.ofNat 32 v.k1.toNat) ∧ ReturnsOnly .rdLFc s v.freqCount
      ∧ ReturnsOnly .rdHStart s v.start ∧ ReturnsOnly .rdHEnd s v.endAddr ∧ ReturnsOnly .rdHAccum s v.accum

/-- RD.L.LVRAMP and RD.L.RVRAMP return the ramp times 256; RD.L.K1RAMP and RD.L.K2RAMP return (ramp[7:0] << 8) | ramp[31];
RD.H.O4N1, O3N1, O3N2, O2N1, O2N2 and O1N1 return the named cell of the selected voice modulo 2^18; nothing else
changes. (R274, R276, R279, R281, R290, R291, R292, R293, R294, R295) -/
def Obligations.RampAndHistoryReads : Prop :=
  ∀ s : State,
    let v := s.voice s.sel
    let word := fun k : Word => BitVec.ofNat 32 (k.toNat % 256 * 256 + k.toNat / 2147483648)
    let low := fun o : Word => BitVec.ofNat 32 (o.toNat % 262144)
    ReturnsOnly .rdLLvramp s (BitVec.ofNat 32 (v.lvramp.toNat * 256))
      ∧ ReturnsOnly .rdLRvramp s (BitVec.ofNat 32 (v.rvramp.toNat * 256))
      ∧ ReturnsOnly .rdLK1ramp s (word v.k1ramp) ∧ ReturnsOnly .rdLK2ramp s (word v.k2ramp)
      ∧ ReturnsOnly .rdHO4n1 s (low v.o4n1) ∧ ReturnsOnly .rdHO3n1 s (low v.o3n1) ∧ ReturnsOnly .rdHO3n2 s (low v.o3n2)
      ∧ ReturnsOnly .rdHO2n1 s (low v.o2n1) ∧ ReturnsOnly .rdHO2n2 s (low v.o2n2) ∧ ReturnsOnly .rdHO1n1 s (low v.o1n1)

/-- RD.L.ACTV, RD.L.MODE, RD.L/H/T.PAGE, RD.H.W_ST, RD.H.W_END and RD.H.LR_END give the host the register as a u32;
RD.T.RSV0, RSV8 and RSVC give 0; nothing else changes. (R282, R283, R286, R296, R297, R298, R299) -/
def Obligations.ChipRegisterReads : Prop :=
  ∀ (s : State) (g : BitVec 1) (r3 : BitVec 3) (r2 : BitVec 2) (r1 : BitVec 1),
    let page := BitVec.ofNat 32 s.currentPage.toNat
    ReturnsOnly .rdLActv s (BitVec.ofNat 32 s.activeVoiceCount.toNat)
      ∧ ReturnsOnly .rdLMode s (BitVec.ofNat 32 s.mode.toNat) ∧ ReturnsOnly .rdLPage s page ∧ ReturnsOnly .rdHPage s page
      ∧ ReturnsOnly (.rdTPage g) s page ∧ ReturnsOnly .rdHWSt s (BitVec.ofNat 32 s.wst.toNat)
      ∧ ReturnsOnly .rdHWEnd s (BitVec.ofNat 32 s.wend.toNat) ∧ ReturnsOnly .rdHLrEnd s (BitVec.ofNat 32 s.lrend.toNat)
      ∧ ReturnsOnly (.rdTRsv0 g r3) s 0 ∧ ReturnsOnly (.rdTRsv8 g r2) s 0 ∧ ReturnsOnly (.rdTRsvC g r1) s 0

/-- RD.L.PAR and RD.H.PAR, without PORT_READ, give the host 0 and change nothing else; with it, they give a free u16,
zero-extended, and count one call of the callback. Nothing is said of the free value (log 7). (R284) -/
def Obligations.PortReadIsFreeOrZero : Prop :=
  ∀ s : State, (s.params.portRead = false → ReturnsOnly .rdLPar s 0 ∧ ReturnsOnly .rdHPar s 0)
    ∧ (s.params.portRead = true →
      let after : State := { s with
        portReads := s.portReads + 1
        trace := s.trace ++ [.readValue (BitVec.ofNat 32 (Config.portValue s.portReads).toNat)] }
      exec .rdLPar s = .next after ∧ exec .rdHPar s = .next after)

/-- RD.L.IRQV, RD.H.IRQV and RD.T.IRQV set irqVector to 0x80, issue IrqLine(false), and give the host the vector as it was
before; nothing else changes, no voice among it. (R285) -/
def Obligations.VectorReadAcknowledges : Prop :=
  ∀ (s : State) (g : BitVec 1),
    let after : State := { s with
      irqVector := 0x80
      trace := s.trace ++ [.irqLine false, .readValue (BitVec.ofNat 32 s.irqVector.toNat)] }
    exec .rdLIrqv s = .next after ∧ exec .rdHIrqv s = .next after ∧ exec (.rdTIrqv g) s = .next after

/-- For CR in both groups: exactly when bit 2 and bits 31:16 are 0. For FC, START, END: exactly when no bit lies outside
the mask. For LVOL, RVOL, K1, K2: exactly when bits 31:16 are 0. For ACCUM: always. (R99) -/
def Obligations.RegisterRoundTrip : Prop :=
  ∀ (d : Word) (s : State),
    (ReadsBack (.wrLCr d) .rdLCr s d ↔ d.getLsbD 2 = false ∧ d.toNat < 65536)
      ∧ (ReadsBack (.wrHCr d) .rdHCr s d ↔ d.getLsbD 2 = false ∧ d.toNat < 65536)
      ∧ (ReadsBack (.wrLFc d) .rdLFc s d ↔ d &&& ~~~s.params.fcMask = 0)
      ∧ (ReadsBack (.wrHStart d) .rdHStart s d ↔ d &&& ~~~s.params.startMask = 0)
      ∧ (ReadsBack (.wrHEnd d) .rdHEnd s d ↔ d &&& ~~~s.params.endMask = 0)
      ∧ (ReadsBack (.wrLLvol d) .rdLLvol s d ↔ d.toNat < 65536) ∧ (ReadsBack (.wrLRvol d) .rdLRvol s d ↔ d.toNat < 65536)
      ∧ (ReadsBack (.wrLK1 d) .rdLK1 s d ↔ d.toNat < 65536) ∧ (ReadsBack (.wrLK2 d) .rdLK2 s d ↔ d.toNat < 65536)
      ∧ ReadsBack (.wrHAccum d) .rdHAccum s d

/-- For every register number and state, the write that the decoder reads from the key {1, currentPage[6:5], reg} does
exactly what RegWrite(reg, d), the operation the bus adapters commit, does. (47_register_bus.md R240, 30_encoding.md
R91, R92) -/
def Obligations.RegisterWriteDispatch : Prop :=
  ∀ (reg : BitVec 4) (d : Word) (s : State),
    exec (writeInstr (s.currentPage.extractLsb' 5 2) reg d) s = .next (regWrite reg d s)

/-- The read that the decoder reads from the key {0, currentPage[6:5], reg} leaves what RegRead(reg) leaves and gives the
host its value. RegPeek(reg) gives the vector for IRQV, 0 for PAR, and RegRead's value for every other register, whose
RegRead changes nothing. (47_register_bus.md R241, 30_encoding.md R91, R92) -/
def Obligations.RegisterReadDispatch : Prop :=
  ∀ (reg : BitVec 4) (s : State),
    exec (readInstr (s.currentPage.extractLsb' 5 2) reg) s
        = .next { (regRead reg s).2 with trace := (regRead reg s).2.trace ++ [.readValue (regRead reg s).1] }
      ∧ (s.regNow reg = .irqv → regPeek reg s = BitVec.ofNat 32 s.irqVector.toNat)
      ∧ (s.regNow reg = .par → regPeek reg s = 0)
      ∧ (s.regNow reg ≠ .irqv → s.regNow reg ≠ .par → regRead reg s = (regPeek reg s, s))

/-- On an ES5506, BUS8_WB(A, b) replaces byte A mod 4 (0 most significant) of the write latch by b, keeping the other
three. For lanes 0 to 2 nothing else changes. For lane 3 RegWrite of the register (A mod 64) / 4 with the whole latch
is performed in the current group, and the latch is 0 after it. On an ES5505 it is refused. (R300) -/
def Obligations.ByteWriteLatchesAndCommits : Prop :=
  ∀ (a : Nat) (b : Byte) (s : State), (s.params.variant = .es5505 → exec (.bus8Wb a b) s = .refused .wrongBusWidth)
    ∧ (s.params.variant = .es5506 →
    ∃ latch : Word,
      (∀ k, k < 4 → latch.extractLsb' (8 * (3 - k)) 8 = if k = a % 4 then b else s.writeLatch.extractLsb' (8 * (3 - k)) 8)
      ∧ (a % 4 ≠ 3 → exec (.bus8Wb a b) s = .next { s with writeLatch := latch })
      ∧ (a % 4 = 3 →
        exec (.bus8Wb a b) s = .next { regWrite (BitVec.ofNat 4 (a % 64 / 4)) latch s with writeLatch := 0 }))

/-- On an ES5506, BUS8_RB(A) with A mod 4 = 0 performs RegRead of the register (A mod 64) / 4, with its side effects, into
the read latch; any other lane leaves the latch as it was. It then gives the host byte A mod 4 (0 most significant) of
the latch. On an ES5505 it is refused. (R301) -/
def Obligations.ByteReadFillsAndDrains : Prop :=
  ∀ (a : Nat) (s : State), (s.params.variant = .es5505 → exec (.bus8Rb a) s = .refused .wrongBusWidth)
    ∧ (s.params.variant = .es5506 →
    let read := regRead (BitVec.ofNat 4 (a % 64 / 4)) s
    let filled : State := if a % 4 = 0 then { read.2 with readLatch := read.1 } else s
    exec (.bus8Rb a) s = .next { filled with
      trace := filled.trace ++ [.readByte (BitVec.ofNat 8 (filled.readLatch.toNat / 256 ^ (3 - a % 4)))] })

/-- On an ES5506, writing the four bytes of d to addresses 4*reg to 4*reg + 3 in order, from any latch, has exactly the
effect of RegWrite(reg, d), the write latch being 0 after it; after the first three no register has changed.
(30_encoding.md R112, R75, R79, R300) -/
def Obligations.FourByteWritesAreOneRegisterWrite : Prop :=
  ∀ (reg : BitVec 4) (d : Word) (s : State), s.params.variant = .es5506 →
    ∃ l1 l2 l3 : Word,
      exec (.bus8Wb (4 * reg.toNat) (d.extractLsb' 24 8)) s = .next { s with writeLatch := l1 }
      ∧ exec (.bus8Wb (4 * reg.toNat + 1) (d.extractLsb' 16 8)) { s with writeLatch := l1 }
          = .next { s with writeLatch := l2 }
      ∧ exec (.bus8Wb (4 * reg.toNat + 2) (d.extractLsb' 8 8)) { s with writeLatch := l2 }
          = .next { s with writeLatch := l3 }
      ∧ exec (.bus8Wb (4 * reg.toNat + 3) (d.extractLsb' 0 8)) { s with writeLatch := l3 }
          = .next { regWrite reg d s with writeLatch := 0 }

/-- On an ES5505, BUS16_W at an offset that BUS16_MAP maps performs RegWrite of the mapped register with the word whose
bits are those of RegPeek, but in the mapped half those of data in each byte the lane mask selects. At an unmapped
offset it changes nothing. On an ES5506 it is refused. (R302) -/
def Obligations.WordWriteMergesLanes : Prop :=
  ∀ (off : Nat) (data : Hword) (lanes : BitVec 2) (s : State), (s.params.variant = .es5506 → exec (.bus16W off data lanes) s = .refused .wrongBusWidth)
    ∧ (s.params.variant = .es5505 →
    (busLine s.params off = none → exec (.bus16W off data lanes) s = .next s)
      ∧ ∀ l, busLine s.params off = some l →
        ∃ x : Word,
          (∀ k, k < 32 → x.getLsbD k =
            if k / 16 = (if l.half = .hi then 1 else 0) ∧ lanes.getLsbD (k / 8 % 2) = true then data.getLsbD (k % 16)
            else (regPeek l.reg s).getLsbD k)
          ∧ exec (.bus16W off data lanes) s = .next (regWrite l.reg x s))

/-- On an ES5505, BUS16_R at a mapped offset performs RegRead once and gives the host bits 31:16 or 15:0 of its value as
the map says; at an unmapped offset it gives 0 and changes nothing else. On an ES5506 it is refused. (R303) -/
def Obligations.WordReadReturnsHalf : Prop :=
  ∀ (off : Nat) (s : State), (s.params.variant = .es5506 → exec (.bus16R off) s = .refused .wrongBusWidth)
    ∧ (s.params.variant = .es5505 →
    (busLine s.params off = none → exec (.bus16R off) s = .next { s with trace := s.trace ++ [.readHword 0] })
      ∧ ∀ l, busLine s.params off = some l →
        let read := regRead l.reg s
        let half := if l.half = .hi then read.1.toNat / 65536 else read.1.toNat % 65536
        exec (.bus16R off) s = .next { read.2 with trace := read.2.trace ++ [.readHword (BitVec.ofNat 16 half)] })

/-- For a voice index at most 31, BANK_W completes with that voice's exBank equal to the operand and changes nothing else;
for a greater index it is refused. (R304) -/
def Obligations.BankSelectWrites : Prop :=
  ∀ (voice : Nat) (value : Word) (s : State),
    (voice ≤ 31 → WritesVoice (.bankW voice value) s (BitVec.ofNat 5 voice)
      { s.voice (BitVec.ofNat 5 voice) with exBank := value })
    ∧ (31 < voice → exec (.bankW voice value) s = .refused .voiceOutOfRange)

/-- Whatever operation completes, but GENERATE, BANK_W and CONSTRUCT, every voice other than the one currentPage[4:0]
selects is exactly as it was; when BANK_W completes, every voice other than the one it names is. (30_encoding.md R92,
20_memory.md R86, 47_register_bus.md R304) -/
def Obligations.OnlyNamedVoiceIsWritten : Prop :=
  (∀ (i : Instr) (s t : State) (w : VoiceIx), exec i s = .next t →
      (∀ n, i ≠ .generate n) → (∀ p, i ≠ .construct p) → (∀ voice value, i ≠ .bankW voice value) → w ≠ s.sel →
      t.voice w = s.voice w)
    ∧ ∀ (voice : Nat) (value : Word) (s t : State) (w : VoiceIx), exec (.bankW voice value) s = .next t →
      w ≠ BitVec.ofNat 5 voice → t.voice w = s.voice w

/-- CONSTRUCT(params) completes with the given parameters, activeVoiceCount 31, currentPage 0, irqVector 0x80, mode, wst,
wend, lrend and both latches 0, every voice with control 0x0003, both volumes 0xFFFF and every other field 0, and no
output. That the trace keeps the outputs from before CONSTRUCT is the model's choice (log 14).
(70_reset_and_hazards.md R350) -/
def Obligations.ConstructionLeavesResetState : Prop :=
  ∀ (p : Params) (s : State), ∃ t, exec (.construct p) s = .next t
    ∧ t.params = p ∧ t.activeVoiceCount = 31 ∧ t.currentPage = 0 ∧ t.irqVector = 0x80 ∧ t.mode = 0 ∧ t.wst = 0
    ∧ t.wend = 0 ∧ t.lrend = 0 ∧ t.writeLatch = 0 ∧ t.readLatch = 0 ∧ t.trace = s.trace
    ∧ ∀ v, t.voice v =
      { control := 0x0003, freqCount := 0, start := 0, endAddr := 0, accum := 0, lvol := 0xFFFF, rvol := 0xFFFF,
        lvramp := 0, rvramp := 0, k1 := 0, k2 := 0, k1ramp := 0, k2ramp := 0, o1n1 := 0, o2n1 := 0, o2n2 := 0,
        o3n1 := 0, o3n2 := 0, o4n1 := 0, ecount := 0, filtCount := 0, exBank := 0 }

/-- In State.reset, and in the state any CONSTRUCT leaves, every voice has both stop bits set and no other control bit:
stopped, forward, no loop, interrupt disabled and not pending, region 0, PCM, pole select 00. The page is voice 0 of
the low group, the vector free and the line deasserted, both latches 0; on an ES5506, the variant with the 8-bit bus,
a first read of lane 1, 2 or 3 returns 0, and a first lane-3 write commits only its own byte. (R351, R352) -/
def Obligations.ResetStopsEveryVoice : Prop :=
  ∀ t : State, (t = State.reset ∨ ∃ p s, exec (.construct p) s = .next t) →
    (∀ v, let x := t.voice v
      x.stop0 = true ∧ x.stop1 = true ∧ x.control = 0x0003 ∧ x.playState = .stopped ∧ x.dir = false
        ∧ x.loopMode = .none ∧ x.irqe = false ∧ x.irq = false ∧ x.bank = 0 ∧ x.cmpd = false ∧ x.lp3 = false ∧ x.lp4 = false)
    ∧ t.sel = 0 ∧ pageGroup t.groupBits = .low ∧ t.irqVector.getLsbD 7 = true
    ∧ t.irqLine = false ∧ t.writeLatch = 0 ∧ t.readLatch = 0
    ∧ (t.params.variant = .es5506 →
      (∀ a, a % 4 ≠ 0 → exec (.bus8Rb a) t = .next { t with trace := t.trace ++ [.readByte 0] })
      ∧ ∀ a b, a % 4 = 3 →
        exec (.bus8Wb a b) t = .next (regWrite (BitVec.ofNat 4 (a / 4)) (BitVec.ofNat 32 b.toNat) t))

/-- State.reset has well-formed parameters, a legal vector, and every voice with its masked fields inside their masks.
(The parameters that stand at reset are the model's choice, log 4.) (10_state.md R26, R45, R52,
70_reset_and_hazards.md R350) -/
def Obligations.SafeAtReset : Prop :=
  Safe State.reset

/-- From every safe state, whatever frame waits, the state a step answers is safe: irqVector is 0x80 or a voice index, FC,
START and END of every voice hold no bit outside their masks, bits 30:8 of every coefficient ramp are 0, and the
parameters, the regions' byte lists among them, stay well formed. (10_state.md R26, R45, R46, R47, R52, 20_memory.md
R78, 60_exceptions.md R324) -/
def Obligations.SafeKeptByEveryStep : Prop :=
  ∀ s t : State, Safe s → step s = .next t → Safe t

/-- Whatever operation completes, if a voice had STOP0, STOP1 or LEI set and has it clear afterwards, then the operation
wrote the control register of that voice (directly, by a lane-3 byte, or through the 16-bit map) or was CONSTRUCT. No
pass of the engine clears them. (10_state.md R34, R35, R36, 44_loop.md R208, R242) -/
def Obligations.StopAndInhibitClearedOnlyByControlWrite : Prop :=
  ∀ (i : Instr) (s t : State) (v : VoiceIx) (bit : Nat), exec i s = .next t → bit < 3 →
    (s.voice v).control.getLsbD bit = true → (t.voice v).control.getLsbD bit = false →
    (WritesCr i s ∧ v = s.sel) ∨ ∃ p, i = .construct p

/-- Whatever operation completes and changes irqVector: it is a GENERATE(N) with N > 0 that found the vector free and
latched an active voice that has its flag clear after it, or it reads IRQV and leaves the vector 0x80, or it is
CONSTRUCT. So a latched vector is never replaced before it is acknowledged. (20_memory.md R86, 10_state.md R26,
60_exceptions.md R324, R325, R326, R331) -/
def Obligations.VectorChangesOnlyByArbiterOrAcknowledge : Prop :=
  ∀ (i : Instr) (s t : State), exec i s = .next t → t.irqVector ≠ s.irqVector →
    (∃ n, i = .generate n ∧ 0 < n ∧ s.irqVector.getLsbD 7 = true ∧ t.irqVector.toNat ≤ s.activeVoiceCount.toNat
      ∧ (t.voice (t.irqVector.setWidth 5)).irq = false)
    ∨ (Acknowledges i s ∧ t.irqVector = 0x80) ∨ ∃ p, i = .construct p

/-- Whatever operation completes and leaves IRQ_LINE at another level than before, the outputs it appends hold IrqLine of
the new level, or the operation is CONSTRUCT, which sends none. (60_exceptions.md R327, R12) -/
def Obligations.LineChangesAreNotified : Prop :=
  ∀ (i : Instr) (s t : State), exec i s = .next t → t.irqLine ≠ s.irqLine →
    (∃ p, i = .construct p) ∨ ∃ new, t.trace = s.trace ++ new ∧ .irqLine t.irqLine ∈ new

/-- GENERATE(N) completes in every state. It appends at most one IrqLine(true), then two buffers of N values each. The
notification is sent exactly when the vector was free and is now the index of an active voice; without it the vector
is unchanged. (45_mixer.md R220, R230, 60_exceptions.md R324, R329, 30_encoding.md R103) -/
def Obligations.GenerateReturnsBuffersAndLatchesOnce : Prop :=
  ∀ (n : Nat) (s : State), ∃ (t : State) (left right : List Word) (new : List Output),
    exec (.generate n) s = .next t ∧ t.trace = s.trace ++ new ++ [.buffers left right]
      ∧ left.length = n ∧ right.length = n
      ∧ ((new = [] ∧ t.irqVector = s.irqVector)
        ∨ (new = [.irqLine true] ∧ s.irqVector.getLsbD 7 = true ∧ t.irqVector.toNat ≤ s.activeVoiceCount.toNat))

/-- GENERATE(N) completes and leaves every chip register but irqVector as it was, the page and both latches among them. In
every voice FC, START, END, the four ramps, exBank and the control bits STOP1, IRQE, LP3, LP4, CA, CMPD and BS are
unchanged. A voice above activeVoiceCount is wholly unchanged. What a pass may change of a voice is ACCUM, LVOL, RVOL,
K1, K2, ECOUNT, filtCount, the six history cells and the control bits STOP0, LEI, LPE, BLE, DIR and IRQ, of which
nothing is said. (10_state.md R34, R45, R56, R63, 45_mixer.md R220, R232, 20_memory.md R86, 44_loop.md R208) -/
def Obligations.GenerateFrame : Prop :=
  ∀ (n : Nat) (s : State), ∃ t, exec (.generate n) s = .next t
    ∧ t.params = s.params ∧ t.activeVoiceCount = s.activeVoiceCount ∧ t.currentPage = s.currentPage ∧ t.mode = s.mode
    ∧ t.wst = s.wst ∧ t.wend = s.wend ∧ t.lrend = s.lrend ∧ t.writeLatch = s.writeLatch ∧ t.readLatch = s.readLatch
    ∧ t.portReads = s.portReads ∧ t.chips = s.chips ∧ t.hostOps = s.hostOps
    ∧ ∀ v, (s.activeVoiceCount.toNat < v.toNat → t.voice v = s.voice v)
      ∧ (t.voice v).control &&& 0xFF22 = (s.voice v).control &&& 0xFF22
      ∧ (t.voice v).freqCount = (s.voice v).freqCount ∧ (t.voice v).start = (s.voice v).start
      ∧ (t.voice v).endAddr = (s.voice v).endAddr ∧ (t.voice v).lvramp = (s.voice v).lvramp
      ∧ (t.voice v).rvramp = (s.voice v).rvramp ∧ (t.voice v).k1ramp = (s.voice v).k1ramp
      ∧ (t.voice v).k2ramp = (s.voice v).k2ramp ∧ (t.voice v).exBank = (s.voice v).exBank

/-- GENERATE(N) with N > 0 completes and leaves accum at most C.accumMask, as unsigned numbers, in every voice
0..activeVoiceCount, stopped or not, whatever the host had written. (44_loop.md R206, 45_mixer.md R225) -/
def Obligations.AccumulatorsMaskedAfterPass : Prop :=
  ∀ (n : Nat) (s : State), 0 < n → ∃ t, exec (.generate n) s = .next t
    ∧ ∀ v : VoiceIx, v.toNat ≤ s.activeVoiceCount.toNat → (t.voice v).accum.toNat ≤ s.params.variant.accumMask.toNat

/-- After GENERATE(N): a voice whose IRQ flag was set has it set still, or the vector, free before, now names that voice;
a voice whose flag was clear and is set now has IRQE set. (60_exceptions.md R322, R323, R324, R331, 44_loop.md R196) -/
def Obligations.InterruptNeverLostAndOnlyEnabledRaised : Prop :=
  ∀ (n : Nat) (s : State), ∃ t, exec (.generate n) s = .next t
    ∧ ∀ v, ((s.voice v).irq = true →
        (t.voice v).irq = true ∨ (s.irqVector.getLsbD 7 = true ∧ t.irqVector = v.setWidth 8))
      ∧ ((s.voice v).irq = false → (t.voice v).irq = true → (s.voice v).irqe = true)

/-- GENERATE(N) with N > 0 leaves an active voice whose START equals its END with STOP0 set, its IRQ flag set only if it
was set, and its accumulator reduced by the mask and not moved. (R205) -/
def Obligations.DegenerateLoopStops : Prop :=
  ∀ (n : Nat) (s : State) (v : VoiceIx), 0 < n → v.toNat ≤ s.activeVoiceCount.toNat →
    (s.voice v).start = (s.voice v).endAddr → ∃ t, exec (.generate n) s = .next t
      ∧ (t.voice v).stop0 = true ∧ ((t.voice v).irq = true → (s.voice v).irq = true)
      ∧ (t.voice v).accum = (s.voice v).accum &&& s.params.variant.accumMask

/-- With voice 0 alone active, not stopped, START and END apart and its region present, GENERATE(1) returns, per side, the
contribution of the filter output at the volume after one envelope step, the filter run on the sample fetched at the
entry accumulator (masked) with the coefficients before that step. Voice 0 is, but for the IRQ flag the arbiter may
clear, its entry self advanced, filtered, stepped and boundary-tested in that order; no other voice changes.
(45_mixer.md R225, R226, R227, R228, 41_fetch_interp.md R130, 42_filter.md R150) -/
def Obligations.OneSampleInOrder : Prop :=
  ∀ (s : State) (m : Memory), s.activeVoiceCount = 0 → (s.voice 0).stopped = false →
    (s.voice 0).start ≠ (s.voice 0).endAddr → regionOf s.params (s.voice 0).bank = some m →
    let mask := s.params.variant.accumMask
    let v := s.voice 0
    let a0 := v.accum &&& mask
    let x := fetchInterp s.params s.chips v.cmpd m v a0
    let moved := { v with accum := (if v.dir then a0 - v.freqCount else a0 + v.freqCount) &&& mask }
    let f := filter s.params.filterOverflow moved x s.filterDraws
    let w := envelope f.voice 1
    ∃ t, exec (.generate 1) s = .next t
      ∧ t.trace.getLast? = some (.buffers [BitVec.ofInt 32 (contribution s.params.volumeLookup f.y w.lvol)]
        [BitVec.ofInt 32 (contribution s.params.volumeLookup f.y w.rvol)])
      ∧ clearIrq (t.voice 0) = clearIrq (boundary mask w) ∧ t.filterDraws = f.draws
      ∧ ∀ u, u ≠ 0 → t.voice u = s.voice u

/-- When every active voice is stopped at entry (a stop bit set, or START equal to END), GENERATE(N) returns 2N zeros, and
each active voice is, but for its IRQ flag, its entered self after one Envelope(v, N). (45_mixer.md R229, R234, R222,
R225) -/
def Obligations.StoppedVoicesAreSilent : Prop :=
  ∀ (n : Nat) (s : State), 0 < n →
    (∀ v : VoiceIx, v.toNat ≤ s.activeVoiceCount.toNat →
      (s.voice v).stopped = true ∨ (s.voice v).start = (s.voice v).endAddr) →
    ∃ t, exec (.generate n) s = .next t
      ∧ t.trace.getLast? = some (.buffers (List.replicate n 0) (List.replicate n 0))
      ∧ ∀ v : VoiceIx, v.toNat ≤ s.activeVoiceCount.toNat →
        clearIrq (t.voice v) = clearIrq (envelope (enterPass s.params.variant.accumMask (s.voice v)) n)

/-- GENERATE(N) with N > 0 leaves each active voice, but for the IRQ flag the arbiter may clear, exactly as the batch that
voice plays by itself on zeroed buffers would: no voice reads or writes another's state. All that passes from voice to
voice is how many free filter values have been drawn (the model's numbering, log 8); with FILTER_OVERFLOW = wrap not
even that matters. (10_state.md R20, 20_memory.md R86, 42_filter.md R160, 45_mixer.md R223, R226) -/
def Obligations.VoicesPlayIndependently : Prop :=
  ∀ (n : Nat) (s : State), 0 < n →
    ∃ t, exec (.generate n) s = .next t
      ∧ ∀ v : VoiceIx, v.toNat ≤ s.activeVoiceCount.toNat →
        clearIrq (t.voice v) = clearIrq (soloBatch s v n (drawsBefore s n v.toNat)).1.voice
        ∧ (s.params.filterOverflow = .wrap →
          ∀ draws, clearIrq (t.voice v) = clearIrq (soloBatch s v n draws).1.voice)

/-- Sample j of each buffer that GENERATE(N) with N > 0 returns is the sum modulo 2^32, over voices 0..activeVoiceCount,
of sample j of the batch that voice plays by itself, each going on with the free filter values where the one before it
stopped (the model's numbering, log 8). With FILTER_OVERFLOW = wrap the sums are the same wherever each starts, and no
free value is drawn. (42_filter.md R160, 45_mixer.md R222, R223, R228, R231) -/
def Obligations.BuffersAreTheSumOfTheVoices : Prop :=
  ∀ (n : Nat) (s : State), 0 < n →
    let mixed := fun (first : VoiceIx → Nat) (side : Slot → Word) => (List.range n).map fun j =>
      (s.activeVoices.map fun v => ((soloBatch s v n (first v)).2.map side).getD j 0).sum
    let chained := fun v : VoiceIx => drawsBefore s n v.toNat
    ∃ t, exec (.generate n) s = .next t
      ∧ t.trace.getLast? = some (.buffers (mixed chained Slot.left) (mixed chained Slot.right))
      ∧ t.filterDraws = drawsBefore s n (s.activeVoiceCount.toNat + 1)
      ∧ (s.params.filterOverflow = .wrap → t.filterDraws = s.filterDraws
        ∧ ∀ first, t.trace.getLast? = some (.buffers (mixed first Slot.left) (mixed first Slot.right)))

/-- For a voice whose coefficient ramps have no slow flag, on any path and in any region, playing the slots xs and then ys
from where that left off gives the same voice, the same free draws and the same samples as playing xs ++ ys at once,
whether and wherever the voice stops. (45_mixer.md R226, R229, R235, 43_envelope.md R179) -/
def Obligations.BatchSplitsWithoutSlowRamps : Prop :=
  ∀ (p : Params) (chip : Nat) (path : Path) (r : Run) (xs ys : List Slot),
    r.voice.k1ramp.getLsbD 31 = false → r.voice.k2ramp.getLsbD 31 = false →
    let first := playBatch p chip path r xs
    let second := playBatch p chip path first.1 ys
    playBatch p chip path r (xs ++ ys) = (second.1, first.2 ++ second.2)

/-- For every voice, path and number of slots: the batch on the silent path adds nothing, draws nothing and leaves the
filter history alone, and leaves every other field of the voice as the batch on any present region, u-law or PCM,
does. (41_fetch_interp.md R141, 42_filter.md R162, 45_mixer.md R233) -/
def Obligations.MissingMemoryKeepsTiming : Prop :=
  ∀ (p : Params) (chip : Nat) (law : Bool) (m : Memory) (r : Run) (slots : List Slot),
    let silent := playBatch p chip .silent r slots
    let sound := playBatch p chip (.sound law m) r slots
    silent.2 = slots ∧ silent.1.draws = r.draws
      ∧ silent.1.voice.o1n1 = r.voice.o1n1 ∧ silent.1.voice.o2n1 = r.voice.o2n1 ∧ silent.1.voice.o2n2 = r.voice.o2n2
      ∧ silent.1.voice.o3n1 = r.voice.o3n1 ∧ silent.1.voice.o3n2 = r.voice.o3n2 ∧ silent.1.voice.o4n1 = r.voice.o4n1
      ∧ withoutHistory sound.1.voice = withoutHistory silent.1.voice

/-- With the vector free, if v is the lowest-numbered active voice with IRQ set, Arbitrate clears v's flag, sets irqVector
to v, issues one IrqLine(true) and changes nothing else. With the vector not free, or no active voice pending, it
changes nothing. GENERATE(N) with N > 0 runs it once, on the state all the voices leave, and then returns the buffers.
(R324) -/
def Obligations.ArbiterLatchesLowestPending : Prop :=
  ∀ s : State,
    (∀ v : VoiceIx, s.irqVector.getLsbD 7 = true → v.toNat ≤ s.activeVoiceCount.toNat → (s.voice v).irq = true →
      (∀ u : VoiceIx, u.toNat < v.toNat → (s.voice u).irq = false) →
      ∃ t, arbitrate s = { t with irqVector := BitVec.ofNat 8 v.toNat, trace := s.trace ++ [.irqLine true] }
        ∧ t.voice v = { s.voice v with control := (s.voice v).control &&& 0xFF7F }
        ∧ (∀ w, w ≠ v → t.voice w = s.voice w) ∧ SameChip s t)
    ∧ (s.irqVector.getLsbD 7 = false ∨ (∀ v : VoiceIx, v.toNat ≤ s.activeVoiceCount.toNat → (s.voice v).irq = false) →
      arbitrate s = s)
    ∧ ∀ n, 0 < n →
      let mixed := mixVoices s (List.replicate n ⟨0, 0⟩) s.activeVoices
      exec (.generate n) s = .next ((arbitrate mixed.1).emit
        (.buffers (mixed.2.map Slot.left) (mixed.2.map Slot.right)))

/-- Under either variant's mask M, Advance leaves accum = (a + F) mod (M + 1) with DIR 0 and (a - F) mod (M + 1) with DIR
1, and changes no other field. If LEI is set, or DIR is 0 and accum is at most END, or DIR is 1 and accum is at least
START (unsigned), Boundary leaves the voice exactly as it was. (44_loop.md R192, R193, R194, R195) -/
def Obligations.AdvanceMovesAndOnlyCrossingsChange : Prop :=
  ∀ (q : Variant) (v : Voice),
    (∃ a : Word, advance q.accumMask v = { v with accum := a }
      ∧ (a.toNat : Int) =
        (if v.dir then (v.accum.toNat : Int) - v.freqCount.toNat else v.accum.toNat + v.freqCount.toNat)
          % (q.accumMask.toNat + 1))
    ∧ (v.lei = true ∨ (v.dir = false ∧ v.accum.toNat ≤ v.endAddr.toNat)
        ∨ (v.dir = true ∧ v.start.toNat ≤ v.accum.toNat) →
      boundary q.accumMask v = v)

/-- With LEI, BLE and LPE clear and the boundary crossed in the voice's direction, Boundary sets STOP0, and IRQ if IRQE is
set, and changes nothing else; the voice is stopped, and the rest of a batch adds nothing to the slots and is one
envelope call. (R198) -/
def Obligations.UnloopedCrossingStops : Prop :=
  ∀ (mask : Word) (v : Voice), v.lei = false → v.ble = false → v.lpe = false →
    (if v.dir then v.accum.toNat < v.start.toNat else v.endAddr.toNat < v.accum.toNat) →
    let w := { v with control := v.control ||| (if v.irqe then 0x0081 else 0x0001) }
    boundary mask v = w ∧ w.stopped = true
      ∧ ∀ (p : Params) (chip : Nat) (path : Path) (draws : Nat) (slots : List Slot), slots ≠ [] →
        playBatch p chip path ⟨w, draws⟩ slots = (⟨envelope w slots.length, draws⟩, slots)

/-- With LEI and BLE clear and LPE set, a forward crossing leaves accum = (S + (a - E)) mod (M + 1), a reverse crossing (E
- (S - a)) mod (M + 1); IRQ is set if IRQE is; nothing else changes, DIR and the stop bits among it. (R199, R200) -/
def Obligations.UnidirectionalLoopWraps : Prop :=
  ∀ (q : Variant) (v : Voice), v.lei = false → v.ble = false → v.lpe = true →
    (if v.dir then v.accum.toNat < v.start.toNat else v.endAddr.toNat < v.accum.toNat) →
    ∃ a : Word, boundary q.accumMask v =
        { v with accum := a, control := v.control ||| (if v.irqe then 0x0080 else 0) }
      ∧ (a.toNat : Int) =
        (if v.dir then (v.endAddr.toNat : Int) - (v.start.toNat - v.accum.toNat)
          else v.start.toNat + ((v.accum.toNat : Int) - v.endAddr.toNat)) % (q.accumMask.toNat + 1)

/-- With LEI and LPE clear and BLE set, a crossing wraps as in unidirectional mode, clears BLE and LPE, sets LEI (and IRQ
if IRQE is set) and changes nothing else; while LEI is set Boundary does nothing at any accumulator. A CR write clears
LEI. (R201) -/
def Obligations.TransWaveSpendsItself : Prop :=
  ∀ (q : Variant) (v : Voice), v.lei = false → v.ble = true → v.lpe = false →
    (if v.dir then v.accum.toNat < v.start.toNat else v.endAddr.toNat < v.accum.toNat) →
    ∃ a : Word, boundary q.accumMask v =
        { v with accum := a, control := (v.control ||| (if v.irqe then 0x0084 else 0x0004)) &&& 0xFFE7 }
      ∧ (a.toNat : Int) =
        (if v.dir then (v.endAddr.toNat : Int) - (v.start.toNat - v.accum.toNat)
          else v.start.toNat + ((v.accum.toNat : Int) - v.endAddr.toNat)) % (q.accumMask.toNat + 1)
      ∧ (∀ b : Word, boundary q.accumMask { boundary q.accumMask v with accum := b }
          = { boundary q.accumMask v with accum := b })
      ∧ ∀ (d : Word) (s : State), ∃ t, exec (.wrLCr d) s = .next t ∧ (t.voice s.sel).lei = false

/-- With LEI clear and BLE and LPE set, a forward crossing leaves accum = (E - (a - E)) mod (M + 1) and DIR 1, a reverse
crossing (S + (S - a)) mod (M + 1) and DIR 0; IRQ is set if IRQE is; nothing else changes. (R202, R203) -/
def Obligations.BidirectionalLoopReflects : Prop :=
  ∀ (q : Variant) (v : Voice), v.lei = false → v.ble = true → v.lpe = true →
    (if v.dir then v.accum.toNat < v.start.toNat else v.endAddr.toNat < v.accum.toNat) →
    ∃ a : Word, boundary q.accumMask v =
        { v with accum := a, control := (v.control ||| (if v.irqe then 0x0080 else 0)) ^^^ 0x0040 }
      ∧ (a.toNat : Int) =
        (if v.dir then (v.start.toNat : Int) + (v.start.toNat - v.accum.toNat)
          else v.endAddr.toNat - ((v.accum.toNat : Int) - v.endAddr.toNat)) % (q.accumMask.toNat + 1)

/-- With ecount 0 the call does nothing. Otherwise, with c = min(ecount, n): ecount falls by c, filtCount rises by c
modulo 256, each volume becomes the exact sum with c times its signed ramp clamped to 0..0xFFFF, each coefficient the
same when its ramp is nonzero and either fast or filtCount is a multiple of 8 before the call, else stays; no other
field changes. (R171, R173, R174, R175, R176, R177) -/
def Obligations.EnvelopeStep : Prop :=
  ∀ (v : Voice) (n : Nat), (v.ecount = 0 → envelope v n = v)
    ∧ (v.ecount ≠ 0 → ∃ (e : BitVec 9) (f : Byte) (l r x y : Hword),
      envelope v n = { v with ecount := e, filtCount := f, lvol := l, rvol := r, k1 := x, k2 := y }
        ∧ e.toNat = v.ecount.toNat - min v.ecount.toNat n
        ∧ f.toNat = (v.filtCount.toNat + min v.ecount.toNat n) % 256
        ∧ (let c : Int := (min v.ecount.toNat n : Nat)
           let s8 := fun b : Nat => if b < 128 then (b : Int) else (b : Int) - 256
           let ramp := fun (level : Hword) (b : Nat) => max 0 (min 65535 ((level.toNat : Int) + s8 b * c))
           let fires := fun k : Word => k ≠ 0 ∧ (k.toNat < 2147483648 ∨ v.filtCount.toNat % 8 = 0)
           (l.toNat : Int) = ramp v.lvol v.lvramp.toNat ∧ (r.toNat : Int) = ramp v.rvol v.rvramp.toNat
             ∧ (fires v.k1ramp → (x.toNat : Int) = ramp v.k1 (v.k1ramp.toNat % 256)) ∧ (¬ fires v.k1ramp → x = v.k1)
             ∧ (fires v.k2ramp → (y.toNat : Int) = ramp v.k2 (v.k2ramp.toNat % 256)) ∧ (¬ fires v.k2ramp → y = v.k2)))

/-- For a voice with filtCount 0 and a slow K1 or K2 ramp, after j calls Envelope(v, 1) with j below the starting ecount,
the next call adds the delta to that coefficient (clamped) when j is a multiple of 8 and leaves it alone otherwise. A
catch-up of c samples, c at most ecount, tests the gate once and, firing, adds c times the delta; at a filtCount that
is no multiple of 8 it leaves the coefficient alone. (R179) -/
def Obligations.SlowRampFiresOneInEight : Prop :=
  ∀ (v : Voice) (j : Nat), v.filtCount = 0 → j < v.ecount.toNat →
    let u := (fun w => envelope w 1)^[j] v
    let s8 := fun k : Word => (k.extractLsb' 0 8).toInt
    (v.k1ramp.getLsbD 31 = true →
      (j % 8 ≠ 0 → (envelope u 1).k1 = u.k1)
        ∧ (j % 8 = 0 → ((envelope u 1).k1.toNat : Int) = max 0 (min 65535 ((u.k1.toNat : Int) + s8 v.k1ramp)))
        ∧ ∀ c, c ≤ u.ecount.toNat → ((envelope u c).k1.toNat : Int) =
          if j % 8 = 0 then max 0 (min 65535 ((u.k1.toNat : Int) + s8 v.k1ramp * c)) else u.k1.toNat)
    ∧ (v.k2ramp.getLsbD 31 = true →
      (j % 8 ≠ 0 → (envelope u 1).k2 = u.k2)
        ∧ (j % 8 = 0 → ((envelope u 1).k2.toNat : Int) = max 0 (min 65535 ((u.k2.toNat : Int) + s8 v.k2ramp)))
        ∧ ∀ c, c ≤ u.ecount.toNat → ((envelope u c).k2.toNat : Int) =
          if j % 8 = 0 then max 0 (min 65535 ((u.k2.toNat : Int) + s8 v.k2ramp * c)) else u.k2.toNat)

/-- For any list of words the host supplies as a region, MemRead at a word address below the list's length gives the word
at that place, whatever the region number and the run. (How a region is stored is the model's choice, log 9.)
(20_memory.md R71, R72, R74) -/
def Obligations.SuppliedWordsAreRead : Prop :=
  ∀ (ws : List Hword) (a chip : Nat) (r : BitVec 2) (h : a < ws.length), memRead chip r (memOfWords ws) a = ws[a]

/-- On a region of supplied words, with both word addresses below the extent: the sample is the floor of (s0 * (2048 - f)
+ s1 * f) / 2048, f the accumulator's low 11 bits, s0 the decoded word at exBank + accum / 2048, s1 that at exBank +
((accum + 2048) mod (M + 1)) / 2048. In PCM a word is its signed value. In u-law it is the table's entry for its high
byte b: with code = 256 b OR ULAW_BIAS, e = code / 8192 and m = 8 code mod 65536, the floor of signed m / 128 if e is
0, else of signed m' / 2^(7 - e), m' being m / 2 with bit 15 the complement of m's. (41_fetch_interp.md R131, R132,
R133, R134, R135, R136, R137, R138) -/
def Obligations.SampleBlendsTwoWords : Prop :=
  ∀ (p : Params) (chip : Nat) (law : Bool) (ws : List Hword) (v : Voice) (a0 : Word),
    let i0 := v.exBank.toNat + a0.toNat / 2048
    let i1 := v.exBank.toNat + (a0.toNat + 2048) % 4294967296 % (p.variant.accumMask.toNat + 1) / 2048
    let s16 := fun z : Nat => if z < 32768 then (z : Int) else (z : Int) - 65536
    let table := fun b : Nat =>
      let code := (256 * b) ||| p.ulawBias.toNat
      let m := 8 * code % 65536
      if code / 8192 = 0 then s16 m / 128
      else s16 (m / 2 + if m < 32768 then 32768 else 0) / 2 ^ (7 - code / 8192)
    let decoded := fun w : Hword => if law then table (w.toNat / 256) else s16 w.toNat
    ∀ (h0 : i0 < ws.length) (h1 : i1 < ws.length),
      let f : Int := (a0.toNat % 2048 : Nat)
      fetchInterp p chip law (memOfWords ws) v a0
        = (decoded (ws[i0]'h0) * (2048 - f) + decoded (ws[i1]'h1) * f) / 2048

/-- For all samples s0 and s1 and every accumulator: the blend is at least the smaller and at most the greater of the two,
and with the low 11 bits 0 it is s0 exactly. (41_fetch_interp.md R138, R139) -/
def Obligations.InterpolationStaysBetween : Prop :=
  ∀ (s0 s1 : Int) (a0 : Word), min s0 s1 ≤ interpolate s0 s1 a0 ∧ interpolate s0 s1 a0 ≤ max s0 s1
    ∧ (a0.toNat % 2048 = 0 → interpolate s0 s1 a0 = s0)

/-- For all operands, with c = k / 4 and w the reduction to i32: LP(k, y, o) = w(tdiv(w(c w(y - o)), 16384) + o) and HP(k,
y, oprev, o) = w(y - oprev + tdiv(w(c o), 32768) + tdiv(o, 2)), and each reports an overflow exactly when a product,
sum or difference of it lies outside i32. For i32 y and o at most 131071 apart LP lies between o and y without
overflow; with k = 0, 1, 2 or 3 it is o for every i32 o. For y, oprev and o of 18 bits HP does not overflow and is the
exact sum. (42_filter.md R151, R152, R160, R164) -/
def Obligations.FilterSectionsAreExactAndBounded : Prop :=
  (∀ (k : Hword) (y oprev o : Int),
      let c : Int := (k.toNat / 4 : Nat)
      let w := fun z : Int => Int.bmod z 4294967296
      let fits := fun z : Int => -2147483648 ≤ z ∧ z ≤ 2147483647
      (lowPass k y o).out = w (Int.tdiv (w (c * w (y - o))) 16384 + o)
        ∧ ((lowPass k y o).overflow = false ↔
          fits (y - o) ∧ fits (c * (y - o)) ∧ fits (Int.tdiv (c * (y - o)) 16384 + o))
        ∧ (highPass k y oprev o).out = w (y - oprev + Int.tdiv (w (c * o)) 32768 + Int.tdiv o 2)
        ∧ ((highPass k y oprev o).overflow = false ↔
          fits (y - oprev) ∧ fits (c * o) ∧ fits (y - oprev + Int.tdiv (c * o) 32768)
            ∧ fits (y - oprev + Int.tdiv (c * o) 32768 + Int.tdiv o 2)))
    ∧ (∀ (k : Hword) (y o : Int), -2147483648 ≤ y → y ≤ 2147483647 → -2147483648 ≤ o → o ≤ 2147483647 →
      y - o ≤ 131071 → o - y ≤ 131071 →
      min o y ≤ (lowPass k y o).out ∧ (lowPass k y o).out ≤ max o y ∧ (lowPass k y o).overflow = false)
    ∧ (∀ (k : Hword) (y o : Int), k.toNat < 4 → -2147483648 ≤ o → o ≤ 2147483647 → (lowPass k y o).out = o)
    ∧ ∀ (k : Hword) (y oprev o : Int), -131072 ≤ y → y ≤ 131071 → -131072 ≤ oprev → oprev ≤ 131071 →
      -131072 ≤ o → o ≤ 131071 →
      (highPass k y oprev o).overflow = false
        ∧ (highPass k y oprev o).out = y - oprev + Int.tdiv ((k.toNat / 4 : Nat) * o) 32768 + Int.tdiv o 2

/-- With LP and HP the formulas of R152: poles 1 and 2 are LP on K1; pole 3 is LP on K1 if LP3 is set, else LP on K2 if
LP4 is, else HP on K2; pole 4 is LP on K2 if LP4 is set, else HP. HP reads the old o2n1 or o3n1 as its previous input.
With FILTER_OVERFLOW = wrap, or when every product, sum and difference fits i32, the output is pole 4's; o1n1, o2n1,
o3n1, o4n1 take the poles' outputs, o2n2 and o3n2 the old o2n1 and o3n1, and no free value is drawn. Under draw, when
one does not fit, the output and the six cells are seven free values, seven more are counted, and nothing is said of
them (which is which is the model's choice, log 8). Nothing of the voice but its history changes. (42_filter.md R151,
R152, R153, R154, R155, R156, R157, R158, R159, R160, R162) -/
def Obligations.FilterCascadesFourPoles : Prop :=
  ∀ (mode : FilterOverflow) (v : Voice) (x : Int) (draws : Nat),
    let c := fun k : Hword => ((k.toNat / 4 : Nat) : Int)
    let w := fun z : Int => Int.bmod z 4294967296
    let fits := fun z : Int => -2147483648 ≤ z ∧ z ≤ 2147483647
    let lp := fun (k : Hword) (y o : Int) => w (Int.tdiv (w (c k * w (y - o))) 16384 + o)
    let hp := fun (k : Hword) (y oprev o : Int) => w (y - oprev + Int.tdiv (w (c k * o)) 32768 + Int.tdiv o 2)
    let lpFits := fun (k : Hword) (y o : Int) =>
      fits (y - o) ∧ fits (c k * (y - o)) ∧ fits (Int.tdiv (c k * (y - o)) 16384 + o)
    let hpFits := fun (k : Hword) (y oprev o : Int) =>
      fits (y - oprev) ∧ fits (c k * o) ∧ fits (y - oprev + Int.tdiv (c k * o) 32768)
        ∧ fits (y - oprev + Int.tdiv (c k * o) 32768 + Int.tdiv o 2)
    let o1 := v.o1n1.toInt
    let o2 := v.o2n1.toInt
    let o3 := v.o3n1.toInt
    let o4 := v.o4n1.toInt
    let y1 := lp v.k1 x o1
    let y2 := lp v.k1 y1 o2
    let y3 := if v.lp3 then lp v.k1 y2 o3 else if v.lp4 then lp v.k2 y2 o3 else hp v.k2 y2 o2 o3
    let y4 := if v.lp4 then lp v.k2 y3 o4 else hp v.k2 y3 o3 o4
    let allFit := lpFits v.k1 x o1 ∧ lpFits v.k1 y1 o2
      ∧ (if v.lp3 then lpFits v.k1 y2 o3 else if v.lp4 then lpFits v.k2 y2 o3 else hpFits v.k2 y2 o2 o3)
      ∧ (if v.lp4 then lpFits v.k2 y3 o4 else hpFits v.k2 y3 o3 o4)
    let r := filter mode v x draws
    withoutHistory r.voice = withoutHistory v
      ∧ (mode = .wrap ∨ allFit →
        r.y = y4 ∧ r.draws = draws ∧ r.voice.o1n1.toInt = y1 ∧ r.voice.o2n1.toInt = y2 ∧ r.voice.o2n2 = v.o2n1
          ∧ r.voice.o3n1.toInt = y3 ∧ r.voice.o3n2 = v.o3n1 ∧ r.voice.o4n1.toInt = y4)
      ∧ (mode = .draw → ¬ allFit →
        let free := fun j => Config.filterDraw (draws + j)
        r.y = (free 0).toInt ∧ r.draws = draws + 7 ∧ r.voice.o1n1 = free 1 ∧ r.voice.o2n1 = free 2
          ∧ r.voice.o2n2 = free 3 ∧ r.voice.o3n1 = free 4 ∧ r.voice.o3n2 = free 5 ∧ r.voice.o4n1 = free 6)

/-- Entry i of the default table is ((i mod 256 + 256) * 2048) / 2^(20 - i / 256), of a table the host supplies its own
entry. With any table, a voice adds to each channel, modulo 2^32 and as a signed word, the floor of w(y * VOL[vol /
16]) / 2048, w the reduction to i32, vol that channel's volume. For y in -32768..32767 and the default table the
product needs no reduction, and the value added lies in -523264..523263. (The table's default is the spec's decision
D21, from general knowledge; log 12.) (41_fetch_interp.md R142, 45_mixer.md R227, R228) -/
def Obligations.VolumeStageScalesAndAccumulates : Prop :=
  (∀ i, i < 4096 → (volume .standard i).toNat = (i % 256 + 256) * 2048 / 2 ^ (20 - i / 256))
    ∧ (∀ (entries : List Hword) (i : Nat) (h : i < entries.length), volume (.custom entries) i = entries[i])
    ∧ (∀ (t : VolumeLookup) (y : Int) (v : Voice) (slot : Slot),
      let added := fun vol : Hword => Int.bmod (y * (volume t (vol.toNat / 16)).toNat) 4294967296 / 2048
      (addTo t y v slot).left.toInt = Int.bmod (slot.left.toInt + added v.lvol) 4294967296
        ∧ (addTo t y v slot).right.toInt = Int.bmod (slot.right.toInt + added v.rvol) 4294967296
        ∧ contribution t y v.lvol = added v.lvol ∧ contribution t y v.rvol = added v.rvol)
    ∧ ∀ (y : Int) (vol : Hword), -32768 ≤ y → y ≤ 32767 →
      contribution .standard y vol = y * (volume .standard (vol.toNat / 16)).toNat / 2048
        ∧ -523264 ≤ contribution .standard y vol ∧ contribution .standard y vol ≤ 523263
end

