-- ==== Sys2Proof/Laws/Codec.lean ====
section
/-! SUPPORT. The operand codec, reader by reader: reading what was written gives it back (`get…_put…`), and what is
read was written so (`put…_of_get…`). -/

namespace Sys2Proof

/-! ## Readers in sequence -/

theorem bind_of_eq {α β : Type} {x : Option α} {a : α} {f : α → Option β} (h : x = some a) : (x >>= f) = f a := by
  rw [h]; rfl

theorem of_bind_eq {α β : Type} {x : Option α} {f : α → Option β} {b : β} (h : (x >>= f) = some b) :
    ∃ a, x = some a ∧ f a = some b := Option.bind_eq_some_iff.mp h

/-! ## Bytes and words -/

@[simp] theorem getByte_putByte (b : Byte) (rest : List Byte) : getByte (putByte b ++ rest) = some (b, rest) := rfl

@[simp] theorem getHword_putHword (h : Hword) (rest : List Byte) :
    getHword (putHword h ++ rest) = some (h, rest) := by
  simp only [putHword, getHword, List.cons_append, List.nil_append, Option.some.injEq, Prod.mk.injEq, and_true]
  exact BitVec.extractLsb'_append_extractLsb'_eq_extractLsb' (by decide) |>.trans BitVec.extractLsb'_eq_self

theorem word_of_bytes (w : Word) :
    w.extractLsb' 24 8 ++ w.extractLsb' 16 8 ++ w.extractLsb' 8 8 ++ w.extractLsb' 0 8 = w := by
  ext i hi
  simp only [BitVec.getElem_append, BitVec.getElem_extractLsb']
  split
  · rw [Nat.zero_add, BitVec.getLsbD_eq_getElem hi]
  · split
    · rw [show 8 + (i - 8) = i by omega, BitVec.getLsbD_eq_getElem hi]
    · split
      · rw [show 16 + (i - 8 - 8) = i by omega, BitVec.getLsbD_eq_getElem hi]
      · rw [show 24 + (i - 8 - 8 - 8) = i by omega, BitVec.getLsbD_eq_getElem hi]

@[simp] theorem getWord_putWord (w : Word) (rest : List Byte) : getWord (putWord w ++ rest) = some (w, rest) := by
  simp [putWord, getWord, word_of_bytes]

@[simp] theorem getFlag_putFlag (b : Bool) (rest : List Byte) : getFlag (putFlag b ++ rest) = some (b, rest) := by
  cases b <;> rfl

theorem putByte_of_getByte {bytes rest : List Byte} {b : Byte} (h : getByte bytes = some (b, rest)) :
    bytes = putByte b ++ rest := by
  match bytes, h with
  | _ :: _, h => cases h; rfl

theorem putHword_of_getHword {bytes rest : List Byte} {x : Hword} (h : getHword bytes = some (x, rest)) :
    bytes = putHword x ++ rest := by
  match bytes, h with
  | a :: b :: r, h =>
    simp only [getHword, Option.some.injEq, Prod.mk.injEq] at h
    obtain ⟨rfl, rfl⟩ := h
    have h1 : (a ++ b).extractLsb' 8 8 = a := by
      ext i hi
      rw [BitVec.getElem_extractLsb', BitVec.getLsbD_append, if_neg (by omega), show 8 + i - 8 = i by omega,
        BitVec.getLsbD_eq_getElem hi]
    have h2 : (a ++ b).extractLsb' 0 8 = b := by
      ext i hi
      rw [BitVec.getElem_extractLsb', BitVec.getLsbD_append, if_pos (by omega), Nat.zero_add,
        BitVec.getLsbD_eq_getElem hi]
    rw [putHword, h1, h2]
    rfl

theorem putWord_of_getWord {bytes rest : List Byte} {w : Word} (h : getWord bytes = some (w, rest)) :
    bytes = putWord w ++ rest := by
  match bytes, h with
  | a :: b :: c :: d :: r, h =>
    simp only [getWord, Option.some.injEq, Prod.mk.injEq] at h
    obtain ⟨rfl, rfl⟩ := h
    simp only [putWord, List.cons_append, List.nil_append, List.cons.injEq, and_true]
    refine ⟨?_, ?_, ?_, ?_⟩ <;>
      · ext i hi
        simp only [BitVec.getElem_extractLsb', BitVec.getLsbD_append]
        repeat' split
        all_goals first
          | omega
          | (rw [BitVec.getLsbD_eq_getElem (by omega)]; congr 1; omega)

theorem putFlag_of_getFlag {bytes rest : List Byte} {b : Bool} (h : getFlag bytes = some (b, rest)) :
    bytes = putFlag b ++ rest := by
  match bytes, h with
  | x :: r, h =>
    simp only [getFlag] at h
    split at h
    · cases h; simp [putFlag, *]
    · split at h
      · cases h; simp [putFlag, *]
      · cases h

/-! ## Numbers -/

theorem putNatFuel_eq (f g n : Nat) (hf : n ≤ f) (hg : n ≤ g) : putNatFuel f n = putNatFuel g n := by
  induction f generalizing g n with
  | zero =>
    obtain rfl : n = 0 := by omega
    cases g <;> rfl
  | succ f ih =>
    cases g with
    | zero =>
      obtain rfl : n = 0 := by omega
      rfl
    | succ g =>
      simp only [putNatFuel]
      split
      · rfl
      · rw [ih g (n / 128) (by omega) (by omega)]

theorem putNat_small {n : Nat} (h : n < 128) : putNat n = [BitVec.ofNat 8 n] := by
  cases n with
  | zero => rfl
  | succ n => simp [putNat, putNatFuel, h]

theorem putNat_large {n : Nat} (h : 128 ≤ n) : putNat n = BitVec.ofNat 8 (128 + n % 128) :: putNat (n / 128) := by
  obtain ⟨m, rfl⟩ : ∃ m, n = m + 1 := ⟨n - 1, by omega⟩
  rw [putNat, putNatFuel, if_neg (by omega), putNat, putNatFuel_eq m ((m + 1) / 128) _ (by omega) le_rfl]

@[simp] theorem getNat_putNat (n : Nat) (rest : List Byte) : getNat (putNat n ++ rest) = some (n, rest) := by
  induction n using Nat.strongRecOn with
  | ind n ih =>
    by_cases h : n < 128
    · rw [putNat_small h]
      simp [getNat, Nat.mod_eq_of_lt (show n < 256 by omega), h]
    · rw [putNat_large (by omega), List.cons_append, getNat]
      have e : (BitVec.ofNat 8 (128 + n % 128)).toNat = 128 + n % 128 := by
        rw [BitVec.toNat_ofNat]; omega
      rw [e, if_neg (by omega), ih (n / 128) (by omega)]
      obtain ⟨m, hm⟩ : ∃ m, n / 128 = m + 1 := ⟨n / 128 - 1, by omega⟩
      simp only [hm, Option.some.injEq, Prod.mk.injEq, and_true]
      omega

theorem putNat_of_getNat {bytes rest : List Byte} {n : Nat} (h : getNat bytes = some (n, rest)) :
    bytes = putNat n ++ rest := by
  induction bytes generalizing n rest with
  | nil => cases h
  | cons b bs ih =>
    rw [getNat] at h
    split at h
    · cases h
      rw [putNat_small (by assumption)]
      simp
    · split at h
      · cases h
      · cases h
      · next m r hr =>
        simp only [Option.some.injEq, Prod.mk.injEq] at h
        obtain ⟨rfl, rfl⟩ := h
        have hb := b.isLt
        rw [putNat_large (by omega), ih hr, List.cons_append]
        have e1 : (b.toNat - 128 + 128 * (m + 1)) / 128 = m + 1 := by omega
        have e2 : 128 + (b.toNat - 128 + 128 * (m + 1)) % 128 = b.toNat := by omega
        rw [e1, e2, BitVec.ofNat_toNat, BitVec.setWidth_eq]

/-! ## Lists: a reader `get` that undoes a writer `put` -/

theorem getMany_flatMap {α : Type} {put : α → List Byte} {get : List Byte → Option (α × List Byte)}
    (hg : ∀ x rest, get (put x ++ rest) = some (x, rest)) (xs : List α) (rest : List Byte) :
    getMany get xs.length (xs.flatMap put ++ rest) = some (xs, rest) := by
  induction xs with
  | nil => rfl
  | cons x xs ih => simp [getMany, List.append_assoc, hg, ih]

theorem getList_putList {α : Type} {put : α → List Byte} {get : List Byte → Option (α × List Byte)}
    (hg : ∀ x rest, get (put x ++ rest) = some (x, rest)) (xs : List α) (rest : List Byte) :
    getList get (putList put xs ++ rest) = some (xs, rest) := by
  simp [getList, putList, List.append_assoc, getMany_flatMap hg]

theorem flatMap_of_getMany {α : Type} {put : α → List Byte} {get : List Byte → Option (α × List Byte)}
    (hg : ∀ {bytes x rest}, get bytes = some (x, rest) → bytes = put x ++ rest) {n : Nat} {bytes rest : List Byte}
    {xs : List α} (h : getMany get n bytes = some (xs, rest)) : xs.length = n ∧ bytes = xs.flatMap put ++ rest := by
  induction n generalizing bytes xs with
  | zero => cases h; exact ⟨rfl, rfl⟩
  | succ n ih =>
    simp only [getMany, bind, Option.bind_eq_some_iff, pure, Option.some.injEq, Prod.mk.injEq, Prod.exists] at h
    obtain ⟨x, b, hx, ys, b', hys, rfl, rfl⟩ := h
    obtain ⟨hl, rfl⟩ := ih hys
    exact ⟨by simp [hl], by rw [hg hx]; simp⟩

theorem putList_of_getList {α : Type} {put : α → List Byte} {get : List Byte → Option (α × List Byte)}
    (hg : ∀ {bytes x rest}, get bytes = some (x, rest) → bytes = put x ++ rest) {bytes rest : List Byte} {xs : List α}
    (h : getList get bytes = some (xs, rest)) : bytes = putList put xs ++ rest := by
  simp only [getList, bind, Option.bind_eq_some_iff, Prod.exists] at h
  obtain ⟨n, b, hn, hm⟩ := h
  obtain ⟨rfl, rfl⟩ := flatMap_of_getMany hg hm
  rw [putNat_of_getNat hn, putList, List.append_assoc]

/-! ## The parts of CONSTRUCT's parameters -/

@[simp] theorem getCell_putCell (c : Host.Cell) (rest : List Byte) : getCell (putCell c ++ rest) = some (c, rest) := by
  simp [getCell, putCell, List.append_assoc]

theorem putCell_of_getCell {bytes rest : List Byte} {c : Host.Cell} (h : getCell bytes = some (c, rest)) :
    bytes = putCell c ++ rest := by
  simp only [getCell, bind, Option.bind_eq_some_iff, pure, Option.some.injEq, Prod.mk.injEq, Prod.exists] at h
  obtain ⟨a, b1, ha, b, b2, hb, rfl, rfl⟩ := h
  rw [putNat_of_getNat ha, putByte_of_getByte hb, putCell, List.append_assoc]

@[simp] theorem getRegion_putRegion (m : Option Memory) (rest : List Byte) :
    getRegion (putRegion m ++ rest) = some (m, rest) := by
  cases m with
  | none => simp [getRegion, putRegion]
  | some m => simp [getRegion, putRegion, List.append_assoc, getList_putList getCell_putCell]

theorem putRegion_of_getRegion {bytes rest : List Byte} {m : Option Memory}
    (h : getRegion bytes = some (m, rest)) : bytes = putRegion m ++ rest := by
  simp only [getRegion, bind, Option.bind_eq_some_iff, Prod.exists] at h
  obtain ⟨present, b, hp, h⟩ := h
  cases present
  · simp only [Bool.false_eq_true, if_false, pure, Option.some.injEq, Prod.mk.injEq] at h
    obtain ⟨rfl, rfl⟩ := h
    exact putFlag_of_getFlag hp
  · simp only [if_true, Option.bind_eq_some_iff, pure, Option.some.injEq, Prod.mk.injEq, Prod.exists] at h
    obtain ⟨len, b1, hl, cells, b2, hc, rfl, rfl⟩ := h
    rw [putFlag_of_getFlag hp, putNat_of_getNat hl, putList_of_getList putCell_of_getCell hc]
    simp [putRegion, List.append_assoc]

theorem getVolume_putVolume (t : VolumeLookup) (rest : List Byte) (h : t.wf = true) :
    getVolume (putVolume t ++ rest) = some (t, rest) := by
  cases t with
  | standard => exact bind_of_eq (getFlag_putFlag false rest)
  | custom table =>
    have hl : table.length = 4096 := by simpa only [VolumeLookup.wf, beq_iff_eq] using h
    have hm := getMany_flatMap getHword_putHword table rest
    rw [hl] at hm
    rw [putVolume, List.append_assoc]
    exact (bind_of_eq (getFlag_putFlag true _)).trans (bind_of_eq hm)

theorem putVolume_of_getVolume {bytes rest : List Byte} {t : VolumeLookup}
    (h : getVolume bytes = some (t, rest)) : bytes = putVolume t ++ rest := by
  obtain ⟨⟨custom, b⟩, hp, h⟩ := of_bind_eq h
  cases custom
  · cases h; exact putFlag_of_getFlag hp
  · obtain ⟨⟨table, b1⟩, ht, h⟩ := of_bind_eq h
    cases h
    rw [putFlag_of_getFlag hp, (flatMap_of_getMany putHword_of_getHword ht).2, putVolume, List.append_assoc]

theorem line_byte (half : RegHalf) (reg : BitVec 4) :
    let b : Byte := (0#3 ++ BitVec.ofBool (half == .hi)) ++ reg
    b.extractLsb' 5 3 = 0 ∧ b.extractLsb' 0 4 = reg ∧ (if b.getLsbD 4 then RegHalf.hi else .lo) = half := by
  revert reg; cases half <;> decide

theorem line_byte_of_fields : ∀ b : Byte, b.extractLsb' 5 3 = 0 →
    (0#3 ++ BitVec.ofBool ((if b.getLsbD 4 then RegHalf.hi else .lo) == .hi)) ++ b.extractLsb' 0 4 = b := by
  decide +kernel

@[simp] theorem getLine_putLine (l : BusLine) (rest : List Byte) : getLine (putLine l ++ rest) = some (l, rest) := by
  obtain ⟨h1, h2, h3⟩ := line_byte l.half l.reg
  simp only [getLine, putLine, List.append_assoc, getNat_putNat, getByte_putByte, bind, Option.bind_some, pure, if_pos h1]
  rw [h2, h3]

theorem putLine_of_getLine {bytes rest : List Byte} {l : BusLine} (h : getLine bytes = some (l, rest)) :
    bytes = putLine l ++ rest := by
  simp only [getLine, bind, Option.bind_eq_some_iff, pure, Prod.exists, Option.ite_none_right_eq_some,
    Option.some.injEq, Prod.mk.injEq] at h
  obtain ⟨off, b1, ho, b, b2, hb, hz, rfl, rfl⟩ := h
  rw [putNat_of_getNat ho, putByte_of_getByte hb, putLine, line_byte_of_fields b hz, List.append_assoc]

/-- Reading well-formed parameters back. -/
theorem getParams_putParams (p : Params) (rest : List Byte) (h : p.wf = true) :
    getParams (putParams p ++ rest) = some (p, rest) := by
  have hv : p.volumeLookup.wf = true := by simp only [Params.wf, Bool.and_eq_true] at h; exact h.1.2
  simp only [putParams, List.append_assoc]
  refine (bind_of_eq (getFlag_putFlag _ _)).trans ?_
  refine (bind_of_eq (getWord_putWord _ _)).trans ?_
  refine (bind_of_eq (getRegion_putRegion _ _)).trans ?_
  refine (bind_of_eq (getRegion_putRegion _ _)).trans ?_
  refine (bind_of_eq (getRegion_putRegion _ _)).trans ?_
  refine (bind_of_eq (getRegion_putRegion _ _)).trans ?_
  refine (bind_of_eq (getFlag_putFlag _ _)).trans ?_
  refine (bind_of_eq (getVolume_putVolume _ _ hv)).trans ?_
  refine (bind_of_eq (getHword_putHword _ _)).trans ?_
  refine (bind_of_eq (getWord_putWord _ _)).trans ?_
  refine (bind_of_eq (getWord_putWord _ _)).trans ?_
  refine (bind_of_eq (getWord_putWord _ _)).trans ?_
  refine (bind_of_eq (getList_putList getLine_putLine _ _)).trans ?_
  refine (bind_of_eq (getFlag_putFlag _ _)).trans ?_
  obtain ⟨variant, clock, r0, r1, r2, r3, port, volume, bias, fc, start, stop, map, overflow⟩ := p
  cases variant <;> cases overflow <;> exact if_pos h

/-- Parameters that are read are well formed and were written so. -/
theorem putParams_of_getParams {bytes rest : List Byte} {p : Params} (h : getParams bytes = some (p, rest)) :
    p.wf = true ∧ bytes = putParams p ++ rest := by
  obtain ⟨⟨a, _⟩, ha, h⟩ := of_bind_eq h
  obtain ⟨⟨b, _⟩, hb, h⟩ := of_bind_eq h
  obtain ⟨⟨c, _⟩, hc, h⟩ := of_bind_eq h
  obtain ⟨⟨d, _⟩, hd, h⟩ := of_bind_eq h
  obtain ⟨⟨e, _⟩, he, h⟩ := of_bind_eq h
  obtain ⟨⟨f, _⟩, hf, h⟩ := of_bind_eq h
  obtain ⟨⟨g, _⟩, hg, h⟩ := of_bind_eq h
  obtain ⟨⟨i, _⟩, hi, h⟩ := of_bind_eq h
  obtain ⟨⟨j, _⟩, hj, h⟩ := of_bind_eq h
  obtain ⟨⟨k, _⟩, hk, h⟩ := of_bind_eq h
  obtain ⟨⟨l, _⟩, hl, h⟩ := of_bind_eq h
  obtain ⟨⟨m, _⟩, hm, h⟩ := of_bind_eq h
  obtain ⟨⟨n, _⟩, hn, h⟩ := of_bind_eq h
  obtain ⟨⟨o, _⟩, ho, h⟩ := of_bind_eq h
  obtain ⟨hw, h⟩ := Option.ite_none_right_eq_some.mp h
  obtain ⟨rfl, rfl⟩ := Prod.mk.inj (Option.some.inj h)
  refine ⟨hw, ?_⟩
  rw [putFlag_of_getFlag ha, putWord_of_getWord hb, putRegion_of_getRegion hc, putRegion_of_getRegion hd,
    putRegion_of_getRegion he, putRegion_of_getRegion hf, putFlag_of_getFlag hg, putVolume_of_getVolume hi,
    putHword_of_getHword hj, putWord_of_getWord hk, putWord_of_getWord hl, putWord_of_getWord hm,
    putList_of_getList putLine_of_getLine hn, putFlag_of_getFlag ho]
  simp only [putParams, List.append_assoc]
  cases a <;> cases o <;> rfl

end Sys2Proof
end

