-- ==== Sys2Proof/Laws/Decode.lean ====
section
/-! SUPPORT. Which operation a key names, and the key and operands of the operation it names. -/

namespace Sys2Proof

/-! ## The operation of a key -/

theorem writeInstr_key (g : BitVec 2) (reg : BitVec 4) (d : Word) : keyOf (writeInstr g reg d) = .reg 1 g reg := by
  revert g reg
  intro g reg
  have key : ∀ (g : BitVec 2) (reg : BitVec 4), keyOf (writeInstr g reg 0) = .reg 1 g reg := by decide
  have same : keyOf (writeInstr g reg d) = keyOf (writeInstr g reg 0) := by
    match g, reg with
    | ⟨⟨g, hg⟩⟩, ⟨⟨reg, hr⟩⟩ => interval_cases g <;> interval_cases reg <;> rfl
  rw [same, key]

theorem readInstr_key : ∀ (g : BitVec 2) (reg : BitVec 4), keyOf (readInstr g reg) = .reg 0 g reg := by decide

theorem writeInstr_operands (g : BitVec 2) (reg : BitVec 4) (d : Word) :
    operandBytes (writeInstr g reg d) = putWord d := by
  match g, reg with
  | ⟨⟨g, hg⟩⟩, ⟨⟨reg, hr⟩⟩ => interval_cases g <;> interval_cases reg <;> rfl

theorem readInstr_operands (g : BitVec 2) (reg : BitVec 4) : operandBytes (readInstr g reg) = [] := by
  match g, reg with
  | ⟨⟨g, hg⟩⟩, ⟨⟨reg, hr⟩⟩ => interval_cases g <;> interval_cases reg <;> rfl

theorem writeInstr_wf (g : BitVec 2) (reg : BitVec 4) (d : Word) : (writeInstr g reg d).wf = true := by
  match g, reg with
  | ⟨⟨g, hg⟩⟩, ⟨⟨reg, hr⟩⟩ => interval_cases g <;> interval_cases reg <;> rfl

theorem readInstr_wf (g : BitVec 2) (reg : BitVec 4) : (readInstr g reg).wf = true := by
  match g, reg with
  | ⟨⟨g, hg⟩⟩, ⟨⟨reg, hr⟩⟩ => interval_cases g <;> interval_cases reg <;> rfl

/-- Every operation has one of three shapes: the write of its key, the read of its key, or a CALL operation. -/
theorem instr_shape (i : Instr) :
    (∃ g reg d, i = writeInstr g reg d) ∨ (∃ g reg, i = readInstr g reg) ∨ ∃ code, keyOf i = .call code := by
  have w (g : BitVec 1) (reg : BitVec 4) (d : Word) : testWrite g reg d = writeInstr (1#1 ++ g) reg d := by
    have h : ∀ g : BitVec 1, (1#1 ++ g : BitVec 2) ≠ (0 : BitVec 2) ∧ (1#1 ++ g : BitVec 2) ≠ (1 : BitVec 2) ∧ (1#1 ++ g).extractLsb' 0 1 = g := by decide
    rw [writeInstr, if_neg (h g).1, if_neg (h g).2.1, (h g).2.2]
  have r3 : ∀ r : BitVec 3, (0#1 ++ r).toNat < 8 ∧ (0#1 ++ r).extractLsb' 0 3 = r := by decide
  have r2 : ∀ r : BitVec 2, ¬ (0b10#2 ++ r).toNat < 8 ∧ (0b10#2 ++ r).toNat < 12 ∧ (0b10#2 ++ r).extractLsb' 0 2 = r := by
    decide
  have r1 : ∀ r : BitVec 1, ¬ (0b110#3 ++ r).toNat < 8 ∧ ¬ (0b110#3 ++ r).toNat < 12 ∧ (0b110#3 ++ r).toNat < 14
      ∧ (0b110#3 ++ r).extractLsb' 0 1 = r := by decide
  have t3 : ∀ (g : BitVec 1) (r : BitVec 3), readInstr (1#1 ++ g) (0#1 ++ r) = .rdTRsv0 g r := by decide
  have t2 : ∀ (g : BitVec 1) (r : BitVec 2), readInstr (1#1 ++ g) (0b10#2 ++ r) = .rdTRsv8 g r := by decide
  have t1 : ∀ (g r : BitVec 1), readInstr (1#1 ++ g) (0b110#3 ++ r) = .rdTRsvC g r := by decide
  have ti : ∀ g : BitVec 1, readInstr (1#1 ++ g) 14 = .rdTIrqv g := by decide
  have tp : ∀ g : BitVec 1, readInstr (1#1 ++ g) 15 = .rdTPage g := by decide
  cases i
  case wrTRsv0 g r d =>
    exact .inl ⟨1#1 ++ g, 0#1 ++ r, d, by rw [← w, testWrite, if_pos (r3 r).1, (r3 r).2]⟩
  case wrTRsv8 g r d =>
    exact .inl ⟨1#1 ++ g, 0b10#2 ++ r, d, by
      rw [← w, testWrite, if_neg (r2 r).1, if_pos (r2 r).2.1, (r2 r).2.2]⟩
  case wrTRsvC g r d =>
    exact .inl ⟨1#1 ++ g, 0b110#3 ++ r, d, by
      rw [← w, testWrite, if_neg (r1 r).1, if_neg (r1 r).2.1, if_pos (r1 r).2.2.1, (r1 r).2.2.2]⟩
  case wrTIrqv g d => exact .inl ⟨1#1 ++ g, 14, d, by rw [← w]; rfl⟩
  case wrTPage g d => exact .inl ⟨1#1 ++ g, 15, d, by rw [← w]; rfl⟩
  case rdTRsv0 g r => exact .inr (.inl ⟨_, _, (t3 g r).symm⟩)
  case rdTRsv8 g r => exact .inr (.inl ⟨_, _, (t2 g r).symm⟩)
  case rdTRsvC g r => exact .inr (.inl ⟨_, _, (t1 g r).symm⟩)
  case rdTIrqv g => exact .inr (.inl ⟨_, _, (ti g).symm⟩)
  case rdTPage g => exact .inr (.inl ⟨_, _, (tp g).symm⟩)
  all_goals first
    | exact .inr (.inr ⟨_, rfl⟩)
    | (rename_i d
       first
        | exact .inl ⟨0, 0, d, rfl⟩ | exact .inl ⟨0, 1, d, rfl⟩ | exact .inl ⟨0, 2, d, rfl⟩ | exact .inl ⟨0, 3, d, rfl⟩
        | exact .inl ⟨0, 4, d, rfl⟩ | exact .inl ⟨0, 5, d, rfl⟩ | exact .inl ⟨0, 6, d, rfl⟩ | exact .inl ⟨0, 7, d, rfl⟩
        | exact .inl ⟨0, 8, d, rfl⟩ | exact .inl ⟨0, 9, d, rfl⟩ | exact .inl ⟨0, 10, d, rfl⟩
        | exact .inl ⟨0, 11, d, rfl⟩ | exact .inl ⟨0, 12, d, rfl⟩ | exact .inl ⟨0, 13, d, rfl⟩
        | exact .inl ⟨0, 14, d, rfl⟩ | exact .inl ⟨0, 15, d, rfl⟩
        | exact .inl ⟨1, 0, d, rfl⟩ | exact .inl ⟨1, 1, d, rfl⟩ | exact .inl ⟨1, 2, d, rfl⟩ | exact .inl ⟨1, 3, d, rfl⟩
        | exact .inl ⟨1, 4, d, rfl⟩ | exact .inl ⟨1, 5, d, rfl⟩ | exact .inl ⟨1, 6, d, rfl⟩ | exact .inl ⟨1, 7, d, rfl⟩
        | exact .inl ⟨1, 8, d, rfl⟩ | exact .inl ⟨1, 9, d, rfl⟩ | exact .inl ⟨1, 10, d, rfl⟩
        | exact .inl ⟨1, 11, d, rfl⟩ | exact .inl ⟨1, 12, d, rfl⟩ | exact .inl ⟨1, 13, d, rfl⟩
        | exact .inl ⟨1, 14, d, rfl⟩ | exact .inl ⟨1, 15, d, rfl⟩)
    | (refine .inr (.inl ?_)
       first
        | exact ⟨0, 0, rfl⟩ | exact ⟨0, 1, rfl⟩ | exact ⟨0, 2, rfl⟩ | exact ⟨0, 3, rfl⟩ | exact ⟨0, 4, rfl⟩
        | exact ⟨0, 5, rfl⟩ | exact ⟨0, 6, rfl⟩ | exact ⟨0, 7, rfl⟩ | exact ⟨0, 8, rfl⟩ | exact ⟨0, 9, rfl⟩
        | exact ⟨0, 10, rfl⟩ | exact ⟨0, 11, rfl⟩ | exact ⟨0, 12, rfl⟩ | exact ⟨0, 13, rfl⟩ | exact ⟨0, 14, rfl⟩
        | exact ⟨0, 15, rfl⟩ | exact ⟨1, 0, rfl⟩ | exact ⟨1, 1, rfl⟩ | exact ⟨1, 2, rfl⟩ | exact ⟨1, 3, rfl⟩
        | exact ⟨1, 4, rfl⟩ | exact ⟨1, 5, rfl⟩ | exact ⟨1, 6, rfl⟩ | exact ⟨1, 7, rfl⟩ | exact ⟨1, 8, rfl⟩
        | exact ⟨1, 9, rfl⟩ | exact ⟨1, 10, rfl⟩ | exact ⟨1, 11, rfl⟩ | exact ⟨1, 12, rfl⟩ | exact ⟨1, 13, rfl⟩
        | exact ⟨1, 14, rfl⟩ | exact ⟨1, 15, rfl⟩)

/-! ## First bytes -/

theorem keyByte_reg : ∀ (w : BitVec 1) (g : BitVec 2) (reg : BitVec 4),
    (keyByte (.reg w g reg)).getLsbD 7 = false ∧ (keyByte (.reg w g reg)).extractLsb' 4 2 = 0
      ∧ (keyByte (.reg w g reg)).getLsbD 6 = w.getLsbD 0 ∧ (keyByte (.reg w g reg)).extractLsb' 0 4 = reg := by
  decide

theorem keyByte_call : ∀ code : BitVec 3,
    (keyByte (.call code)).getLsbD 7 = true ∧ (keyByte (.call code)).extractLsb' 3 4 = 0
      ∧ (keyByte (.call code)).extractLsb' 0 3 = code := by
  decide

theorem keyByte_of_regByte : ∀ b : Byte, b.getLsbD 7 = false → b.extractLsb' 4 2 = 0 → ∀ g : BitVec 2,
    keyByte (.reg (BitVec.ofBool (b.getLsbD 6)) g (b.extractLsb' 0 4)) = b := by
  decide +kernel

theorem keyByte_of_callByte : ∀ b : Byte, b.getLsbD 7 = true → b.extractLsb' 3 4 = 0 →
    keyByte (.call (b.extractLsb' 0 3)) = b := by
  decide +kernel

end Sys2Proof
end

