-- ==== Sys2Proof/Laws/State.lean ====
section
/-! SUPPORT. Each update of the state or of a voice, field by field: what it leaves alone and what it writes. No later
proof needs to unfold a record update. -/

namespace Sys2Proof.Machine

/-! ## Reaching a voice -/

@[simp] theorem State.voice_setVoice_same (s : State) (v : VoiceIx) (x : Voice) : (s.setVoice v x).voice v = x := by
  simp [State.setVoice, State.voice]

theorem State.voice_setVoice_ne (s : State) {v w : VoiceIx} (x : Voice) (h : w ≠ v) :
    (s.setVoice v x).voice w = s.voice w := by
  simp only [State.setVoice, State.voice, Vector.getElem_set]
  exact if_neg fun e => h (BitVec.eq_of_toNat_eq e.symm)

/-- The whole of what a voice write does to the voices. -/
theorem State.voice_setVoice (s : State) (v w : VoiceIx) (x : Voice) :
    (s.setVoice v x).voice w = if w = v then x else s.voice w := by
  by_cases h : w = v
  · subst h; simp
  · rw [State.voice_setVoice_ne s x h, if_neg h]

/-- A state whose voices are those of another reads the same voices. -/
theorem State.voice_congr {s t : State} (h : t.voices = s.voices) (w : VoiceIx) : t.voice w = s.voice w := by
  simp only [State.voice, h]

@[simp] theorem State.setVoice_voice (s : State) (v : VoiceIx) : s.setVoice v (s.voice v) = s := by
  simp [State.setVoice, State.voice]

@[simp] theorem State.voice_fresh (p : Params) (v : VoiceIx) : (State.fresh p).voice v = Voice.fresh := by
  simp [State.voice, State.fresh]


/-! ## setVoice -/

@[simp] theorem State.setVoice_params (s : State) (v : VoiceIx) (x : Voice) : (s.setVoice v x).params = s.params := rfl
@[simp] theorem State.setVoice_activeVoiceCount (s : State) (v : VoiceIx) (x : Voice) : (s.setVoice v x).activeVoiceCount = s.activeVoiceCount := rfl
@[simp] theorem State.setVoice_currentPage (s : State) (v : VoiceIx) (x : Voice) : (s.setVoice v x).currentPage = s.currentPage := rfl
@[simp] theorem State.setVoice_irqVector (s : State) (v : VoiceIx) (x : Voice) : (s.setVoice v x).irqVector = s.irqVector := rfl
@[simp] theorem State.setVoice_mode (s : State) (v : VoiceIx) (x : Voice) : (s.setVoice v x).mode = s.mode := rfl
@[simp] theorem State.setVoice_wst (s : State) (v : VoiceIx) (x : Voice) : (s.setVoice v x).wst = s.wst := rfl
@[simp] theorem State.setVoice_wend (s : State) (v : VoiceIx) (x : Voice) : (s.setVoice v x).wend = s.wend := rfl
@[simp] theorem State.setVoice_lrend (s : State) (v : VoiceIx) (x : Voice) : (s.setVoice v x).lrend = s.lrend := rfl
@[simp] theorem State.setVoice_writeLatch (s : State) (v : VoiceIx) (x : Voice) : (s.setVoice v x).writeLatch = s.writeLatch := rfl
@[simp] theorem State.setVoice_readLatch (s : State) (v : VoiceIx) (x : Voice) : (s.setVoice v x).readLatch = s.readLatch := rfl
@[simp] theorem State.setVoice_portReads (s : State) (v : VoiceIx) (x : Voice) : (s.setVoice v x).portReads = s.portReads := rfl
@[simp] theorem State.setVoice_filterDraws (s : State) (v : VoiceIx) (x : Voice) : (s.setVoice v x).filterDraws = s.filterDraws := rfl
@[simp] theorem State.setVoice_chips (s : State) (v : VoiceIx) (x : Voice) : (s.setVoice v x).chips = s.chips := rfl
@[simp] theorem State.setVoice_trace (s : State) (v : VoiceIx) (x : Voice) : (s.setVoice v x).trace = s.trace := rfl
@[simp] theorem State.setVoice_hostOps (s : State) (v : VoiceIx) (x : Voice) : (s.setVoice v x).hostOps = s.hostOps := rfl

/-! ## updSel -/

@[simp] theorem State.updSel_params (s : State) (f : Voice → Voice) : (s.updSel f).params = s.params := rfl
@[simp] theorem State.updSel_activeVoiceCount (s : State) (f : Voice → Voice) : (s.updSel f).activeVoiceCount = s.activeVoiceCount := rfl
@[simp] theorem State.updSel_currentPage (s : State) (f : Voice → Voice) : (s.updSel f).currentPage = s.currentPage := rfl
@[simp] theorem State.updSel_irqVector (s : State) (f : Voice → Voice) : (s.updSel f).irqVector = s.irqVector := rfl
@[simp] theorem State.updSel_mode (s : State) (f : Voice → Voice) : (s.updSel f).mode = s.mode := rfl
@[simp] theorem State.updSel_wst (s : State) (f : Voice → Voice) : (s.updSel f).wst = s.wst := rfl
@[simp] theorem State.updSel_wend (s : State) (f : Voice → Voice) : (s.updSel f).wend = s.wend := rfl
@[simp] theorem State.updSel_lrend (s : State) (f : Voice → Voice) : (s.updSel f).lrend = s.lrend := rfl
@[simp] theorem State.updSel_writeLatch (s : State) (f : Voice → Voice) : (s.updSel f).writeLatch = s.writeLatch := rfl
@[simp] theorem State.updSel_readLatch (s : State) (f : Voice → Voice) : (s.updSel f).readLatch = s.readLatch := rfl
@[simp] theorem State.updSel_portReads (s : State) (f : Voice → Voice) : (s.updSel f).portReads = s.portReads := rfl
@[simp] theorem State.updSel_filterDraws (s : State) (f : Voice → Voice) : (s.updSel f).filterDraws = s.filterDraws := rfl
@[simp] theorem State.updSel_chips (s : State) (f : Voice → Voice) : (s.updSel f).chips = s.chips := rfl
@[simp] theorem State.updSel_trace (s : State) (f : Voice → Voice) : (s.updSel f).trace = s.trace := rfl
@[simp] theorem State.updSel_hostOps (s : State) (f : Voice → Voice) : (s.updSel f).hostOps = s.hostOps := rfl

/-! ## emit -/

@[simp] theorem State.emit_params (s : State) (e : Output) : (s.emit e).params = s.params := rfl
@[simp] theorem State.emit_activeVoiceCount (s : State) (e : Output) : (s.emit e).activeVoiceCount = s.activeVoiceCount := rfl
@[simp] theorem State.emit_currentPage (s : State) (e : Output) : (s.emit e).currentPage = s.currentPage := rfl
@[simp] theorem State.emit_irqVector (s : State) (e : Output) : (s.emit e).irqVector = s.irqVector := rfl
@[simp] theorem State.emit_mode (s : State) (e : Output) : (s.emit e).mode = s.mode := rfl
@[simp] theorem State.emit_wst (s : State) (e : Output) : (s.emit e).wst = s.wst := rfl
@[simp] theorem State.emit_wend (s : State) (e : Output) : (s.emit e).wend = s.wend := rfl
@[simp] theorem State.emit_lrend (s : State) (e : Output) : (s.emit e).lrend = s.lrend := rfl
@[simp] theorem State.emit_writeLatch (s : State) (e : Output) : (s.emit e).writeLatch = s.writeLatch := rfl
@[simp] theorem State.emit_readLatch (s : State) (e : Output) : (s.emit e).readLatch = s.readLatch := rfl
@[simp] theorem State.emit_voices (s : State) (e : Output) : (s.emit e).voices = s.voices := rfl
@[simp] theorem State.emit_portReads (s : State) (e : Output) : (s.emit e).portReads = s.portReads := rfl
@[simp] theorem State.emit_filterDraws (s : State) (e : Output) : (s.emit e).filterDraws = s.filterDraws := rfl
@[simp] theorem State.emit_chips (s : State) (e : Output) : (s.emit e).chips = s.chips := rfl
@[simp] theorem State.emit_trace (s : State) (e : Output) : (s.emit e).trace = s.trace ++ [e] := rfl
@[simp] theorem State.emit_hostOps (s : State) (e : Output) : (s.emit e).hostOps = s.hostOps := rfl
@[simp] theorem State.emit_voice (s : State) (e : Output) (v : VoiceIx) : (s.emit e).voice v = s.voice v := rfl

/-! ## storeActv -/

@[simp] theorem storeActv_params (s : State) (d : Word) : (storeActv d s).params = s.params := rfl
@[simp] theorem storeActv_activeVoiceCount (s : State) (d : Word) : (storeActv d s).activeVoiceCount = fiveField d := rfl
@[simp] theorem storeActv_currentPage (s : State) (d : Word) : (storeActv d s).currentPage = s.currentPage := rfl
@[simp] theorem storeActv_irqVector (s : State) (d : Word) : (storeActv d s).irqVector = s.irqVector := rfl
@[simp] theorem storeActv_mode (s : State) (d : Word) : (storeActv d s).mode = s.mode := rfl
@[simp] theorem storeActv_wst (s : State) (d : Word) : (storeActv d s).wst = s.wst := rfl
@[simp] theorem storeActv_wend (s : State) (d : Word) : (storeActv d s).wend = s.wend := rfl
@[simp] theorem storeActv_lrend (s : State) (d : Word) : (storeActv d s).lrend = s.lrend := rfl
@[simp] theorem storeActv_writeLatch (s : State) (d : Word) : (storeActv d s).writeLatch = s.writeLatch := rfl
@[simp] theorem storeActv_readLatch (s : State) (d : Word) : (storeActv d s).readLatch = s.readLatch := rfl
@[simp] theorem storeActv_voices (s : State) (d : Word) : (storeActv d s).voices = s.voices := rfl
@[simp] theorem storeActv_portReads (s : State) (d : Word) : (storeActv d s).portReads = s.portReads := rfl
@[simp] theorem storeActv_filterDraws (s : State) (d : Word) : (storeActv d s).filterDraws = s.filterDraws := rfl
@[simp] theorem storeActv_chips (s : State) (d : Word) : (storeActv d s).chips = s.chips := rfl
@[simp] theorem storeActv_trace (s : State) (d : Word) : (storeActv d s).trace = s.trace ++ [.sampleRate (sampleRate s.params.masterClockHz (fiveField d))] := rfl
@[simp] theorem storeActv_hostOps (s : State) (d : Word) : (storeActv d s).hostOps = s.hostOps := rfl

/-! ## storeMode -/

@[simp] theorem storeMode_params (s : State) (d : Word) : (storeMode d s).params = s.params := rfl
@[simp] theorem storeMode_activeVoiceCount (s : State) (d : Word) : (storeMode d s).activeVoiceCount = s.activeVoiceCount := rfl
@[simp] theorem storeMode_currentPage (s : State) (d : Word) : (storeMode d s).currentPage = s.currentPage := rfl
@[simp] theorem storeMode_irqVector (s : State) (d : Word) : (storeMode d s).irqVector = s.irqVector := rfl
@[simp] theorem storeMode_mode (s : State) (d : Word) : (storeMode d s).mode = fiveField d := rfl
@[simp] theorem storeMode_wst (s : State) (d : Word) : (storeMode d s).wst = s.wst := rfl
@[simp] theorem storeMode_wend (s : State) (d : Word) : (storeMode d s).wend = s.wend := rfl
@[simp] theorem storeMode_lrend (s : State) (d : Word) : (storeMode d s).lrend = s.lrend := rfl
@[simp] theorem storeMode_writeLatch (s : State) (d : Word) : (storeMode d s).writeLatch = s.writeLatch := rfl
@[simp] theorem storeMode_readLatch (s : State) (d : Word) : (storeMode d s).readLatch = s.readLatch := rfl
@[simp] theorem storeMode_voices (s : State) (d : Word) : (storeMode d s).voices = s.voices := rfl
@[simp] theorem storeMode_portReads (s : State) (d : Word) : (storeMode d s).portReads = s.portReads := rfl
@[simp] theorem storeMode_filterDraws (s : State) (d : Word) : (storeMode d s).filterDraws = s.filterDraws := rfl
@[simp] theorem storeMode_chips (s : State) (d : Word) : (storeMode d s).chips = s.chips := rfl
@[simp] theorem storeMode_trace (s : State) (d : Word) : (storeMode d s).trace = s.trace := rfl
@[simp] theorem storeMode_hostOps (s : State) (d : Word) : (storeMode d s).hostOps = s.hostOps := rfl

/-! ## storePage -/

@[simp] theorem storePage_params (s : State) (d : Word) : (storePage d s).params = s.params := rfl
@[simp] theorem storePage_activeVoiceCount (s : State) (d : Word) : (storePage d s).activeVoiceCount = s.activeVoiceCount := rfl
@[simp] theorem storePage_currentPage (s : State) (d : Word) : (storePage d s).currentPage = sevenField d := rfl
@[simp] theorem storePage_irqVector (s : State) (d : Word) : (storePage d s).irqVector = s.irqVector := rfl
@[simp] theorem storePage_mode (s : State) (d : Word) : (storePage d s).mode = s.mode := rfl
@[simp] theorem storePage_wst (s : State) (d : Word) : (storePage d s).wst = s.wst := rfl
@[simp] theorem storePage_wend (s : State) (d : Word) : (storePage d s).wend = s.wend := rfl
@[simp] theorem storePage_lrend (s : State) (d : Word) : (storePage d s).lrend = s.lrend := rfl
@[simp] theorem storePage_writeLatch (s : State) (d : Word) : (storePage d s).writeLatch = s.writeLatch := rfl
@[simp] theorem storePage_readLatch (s : State) (d : Word) : (storePage d s).readLatch = s.readLatch := rfl
@[simp] theorem storePage_voices (s : State) (d : Word) : (storePage d s).voices = s.voices := rfl
@[simp] theorem storePage_portReads (s : State) (d : Word) : (storePage d s).portReads = s.portReads := rfl
@[simp] theorem storePage_filterDraws (s : State) (d : Word) : (storePage d s).filterDraws = s.filterDraws := rfl
@[simp] theorem storePage_chips (s : State) (d : Word) : (storePage d s).chips = s.chips := rfl
@[simp] theorem storePage_trace (s : State) (d : Word) : (storePage d s).trace = s.trace := rfl
@[simp] theorem storePage_hostOps (s : State) (d : Word) : (storePage d s).hostOps = s.hostOps := rfl

/-! ## storeWst -/

@[simp] theorem storeWst_params (s : State) (d : Word) : (storeWst d s).params = s.params := rfl
@[simp] theorem storeWst_activeVoiceCount (s : State) (d : Word) : (storeWst d s).activeVoiceCount = s.activeVoiceCount := rfl
@[simp] theorem storeWst_currentPage (s : State) (d : Word) : (storeWst d s).currentPage = s.currentPage := rfl
@[simp] theorem storeWst_irqVector (s : State) (d : Word) : (storeWst d s).irqVector = s.irqVector := rfl
@[simp] theorem storeWst_mode (s : State) (d : Word) : (storeWst d s).mode = s.mode := rfl
@[simp] theorem storeWst_wst (s : State) (d : Word) : (storeWst d s).wst = sevenField d := rfl
@[simp] theorem storeWst_wend (s : State) (d : Word) : (storeWst d s).wend = s.wend := rfl
@[simp] theorem storeWst_lrend (s : State) (d : Word) : (storeWst d s).lrend = s.lrend := rfl
@[simp] theorem storeWst_writeLatch (s : State) (d : Word) : (storeWst d s).writeLatch = s.writeLatch := rfl
@[simp] theorem storeWst_readLatch (s : State) (d : Word) : (storeWst d s).readLatch = s.readLatch := rfl
@[simp] theorem storeWst_voices (s : State) (d : Word) : (storeWst d s).voices = s.voices := rfl
@[simp] theorem storeWst_portReads (s : State) (d : Word) : (storeWst d s).portReads = s.portReads := rfl
@[simp] theorem storeWst_filterDraws (s : State) (d : Word) : (storeWst d s).filterDraws = s.filterDraws := rfl
@[simp] theorem storeWst_chips (s : State) (d : Word) : (storeWst d s).chips = s.chips := rfl
@[simp] theorem storeWst_trace (s : State) (d : Word) : (storeWst d s).trace = s.trace := rfl
@[simp] theorem storeWst_hostOps (s : State) (d : Word) : (storeWst d s).hostOps = s.hostOps := rfl

/-! ## storeWend -/

@[simp] theorem storeWend_params (s : State) (d : Word) : (storeWend d s).params = s.params := rfl
@[simp] theorem storeWend_activeVoiceCount (s : State) (d : Word) : (storeWend d s).activeVoiceCount = s.activeVoiceCount := rfl
@[simp] theorem storeWend_currentPage (s : State) (d : Word) : (storeWend d s).currentPage = s.currentPage := rfl
@[simp] theorem storeWend_irqVector (s : State) (d : Word) : (storeWend d s).irqVector = s.irqVector := rfl
@[simp] theorem storeWend_mode (s : State) (d : Word) : (storeWend d s).mode = s.mode := rfl
@[simp] theorem storeWend_wst (s : State) (d : Word) : (storeWend d s).wst = s.wst := rfl
@[simp] theorem storeWend_wend (s : State) (d : Word) : (storeWend d s).wend = sevenField d := rfl
@[simp] theorem storeWend_lrend (s : State) (d : Word) : (storeWend d s).lrend = s.lrend := rfl
@[simp] theorem storeWend_writeLatch (s : State) (d : Word) : (storeWend d s).writeLatch = s.writeLatch := rfl
@[simp] theorem storeWend_readLatch (s : State) (d : Word) : (storeWend d s).readLatch = s.readLatch := rfl
@[simp] theorem storeWend_voices (s : State) (d : Word) : (storeWend d s).voices = s.voices := rfl
@[simp] theorem storeWend_portReads (s : State) (d : Word) : (storeWend d s).portReads = s.portReads := rfl
@[simp] theorem storeWend_filterDraws (s : State) (d : Word) : (storeWend d s).filterDraws = s.filterDraws := rfl
@[simp] theorem storeWend_chips (s : State) (d : Word) : (storeWend d s).chips = s.chips := rfl
@[simp] theorem storeWend_trace (s : State) (d : Word) : (storeWend d s).trace = s.trace := rfl
@[simp] theorem storeWend_hostOps (s : State) (d : Word) : (storeWend d s).hostOps = s.hostOps := rfl

/-! ## storeLrend -/

@[simp] theorem storeLrend_params (s : State) (d : Word) : (storeLrend d s).params = s.params := rfl
@[simp] theorem storeLrend_activeVoiceCount (s : State) (d : Word) : (storeLrend d s).activeVoiceCount = s.activeVoiceCount := rfl
@[simp] theorem storeLrend_currentPage (s : State) (d : Word) : (storeLrend d s).currentPage = s.currentPage := rfl
@[simp] theorem storeLrend_irqVector (s : State) (d : Word) : (storeLrend d s).irqVector = s.irqVector := rfl
@[simp] theorem storeLrend_mode (s : State) (d : Word) : (storeLrend d s).mode = s.mode := rfl
@[simp] theorem storeLrend_wst (s : State) (d : Word) : (storeLrend d s).wst = s.wst := rfl
@[simp] theorem storeLrend_wend (s : State) (d : Word) : (storeLrend d s).wend = s.wend := rfl
@[simp] theorem storeLrend_lrend (s : State) (d : Word) : (storeLrend d s).lrend = sevenField d := rfl
@[simp] theorem storeLrend_writeLatch (s : State) (d : Word) : (storeLrend d s).writeLatch = s.writeLatch := rfl
@[simp] theorem storeLrend_readLatch (s : State) (d : Word) : (storeLrend d s).readLatch = s.readLatch := rfl
@[simp] theorem storeLrend_voices (s : State) (d : Word) : (storeLrend d s).voices = s.voices := rfl
@[simp] theorem storeLrend_portReads (s : State) (d : Word) : (storeLrend d s).portReads = s.portReads := rfl
@[simp] theorem storeLrend_filterDraws (s : State) (d : Word) : (storeLrend d s).filterDraws = s.filterDraws := rfl
@[simp] theorem storeLrend_chips (s : State) (d : Word) : (storeLrend d s).chips = s.chips := rfl
@[simp] theorem storeLrend_trace (s : State) (d : Word) : (storeLrend d s).trace = s.trace := rfl
@[simp] theorem storeLrend_hostOps (s : State) (d : Word) : (storeLrend d s).hostOps = s.hostOps := rfl
@[simp] theorem storeActv_voice (s : State) (d : Word) (v : VoiceIx) : (storeActv d s).voice v = s.voice v := rfl
@[simp] theorem storeMode_voice (s : State) (d : Word) (v : VoiceIx) : (storeMode d s).voice v = s.voice v := rfl
@[simp] theorem storePage_voice (s : State) (d : Word) (v : VoiceIx) : (storePage d s).voice v = s.voice v := rfl
@[simp] theorem storeWst_voice (s : State) (d : Word) (v : VoiceIx) : (storeWst d s).voice v = s.voice v := rfl
@[simp] theorem storeWend_voice (s : State) (d : Word) (v : VoiceIx) : (storeWend d s).voice v = s.voice v := rfl
@[simp] theorem storeLrend_voice (s : State) (d : Word) (v : VoiceIx) : (storeLrend d s).voice v = s.voice v := rfl

/-! ## acknowledge -/

@[simp] theorem acknowledge_params (s : State) : ((acknowledge s).2).params = s.params := rfl
@[simp] theorem acknowledge_activeVoiceCount (s : State) : ((acknowledge s).2).activeVoiceCount = s.activeVoiceCount := rfl
@[simp] theorem acknowledge_currentPage (s : State) : ((acknowledge s).2).currentPage = s.currentPage := rfl
@[simp] theorem acknowledge_irqVector (s : State) : ((acknowledge s).2).irqVector = 0x80 := rfl
@[simp] theorem acknowledge_mode (s : State) : ((acknowledge s).2).mode = s.mode := rfl
@[simp] theorem acknowledge_wst (s : State) : ((acknowledge s).2).wst = s.wst := rfl
@[simp] theorem acknowledge_wend (s : State) : ((acknowledge s).2).wend = s.wend := rfl
@[simp] theorem acknowledge_lrend (s : State) : ((acknowledge s).2).lrend = s.lrend := rfl
@[simp] theorem acknowledge_writeLatch (s : State) : ((acknowledge s).2).writeLatch = s.writeLatch := rfl
@[simp] theorem acknowledge_readLatch (s : State) : ((acknowledge s).2).readLatch = s.readLatch := rfl
@[simp] theorem acknowledge_voices (s : State) : ((acknowledge s).2).voices = s.voices := rfl
@[simp] theorem acknowledge_portReads (s : State) : ((acknowledge s).2).portReads = s.portReads := rfl
@[simp] theorem acknowledge_filterDraws (s : State) : ((acknowledge s).2).filterDraws = s.filterDraws := rfl
@[simp] theorem acknowledge_chips (s : State) : ((acknowledge s).2).chips = s.chips := rfl
@[simp] theorem acknowledge_trace (s : State) : ((acknowledge s).2).trace = s.trace ++ [.irqLine false] := rfl
@[simp] theorem acknowledge_hostOps (s : State) : ((acknowledge s).2).hostOps = s.hostOps := rfl
@[simp] theorem acknowledge_voice (s : State) (v : VoiceIx) : (acknowledge s).2.voice v = s.voice v := rfl
@[simp] theorem acknowledge_value (s : State) : (acknowledge s).1 = s.irqVector.setWidth 32 := rfl

/-! ## returned -/

@[simp] theorem returned_params (s : State) (x : Word) : (returned (x, s)).params = s.params := rfl
@[simp] theorem returned_activeVoiceCount (s : State) (x : Word) : (returned (x, s)).activeVoiceCount = s.activeVoiceCount := rfl
@[simp] theorem returned_currentPage (s : State) (x : Word) : (returned (x, s)).currentPage = s.currentPage := rfl
@[simp] theorem returned_irqVector (s : State) (x : Word) : (returned (x, s)).irqVector = s.irqVector := rfl
@[simp] theorem returned_mode (s : State) (x : Word) : (returned (x, s)).mode = s.mode := rfl
@[simp] theorem returned_wst (s : State) (x : Word) : (returned (x, s)).wst = s.wst := rfl
@[simp] theorem returned_wend (s : State) (x : Word) : (returned (x, s)).wend = s.wend := rfl
@[simp] theorem returned_lrend (s : State) (x : Word) : (returned (x, s)).lrend = s.lrend := rfl
@[simp] theorem returned_writeLatch (s : State) (x : Word) : (returned (x, s)).writeLatch = s.writeLatch := rfl
@[simp] theorem returned_readLatch (s : State) (x : Word) : (returned (x, s)).readLatch = s.readLatch := rfl
@[simp] theorem returned_voices (s : State) (x : Word) : (returned (x, s)).voices = s.voices := rfl
@[simp] theorem returned_portReads (s : State) (x : Word) : (returned (x, s)).portReads = s.portReads := rfl
@[simp] theorem returned_filterDraws (s : State) (x : Word) : (returned (x, s)).filterDraws = s.filterDraws := rfl
@[simp] theorem returned_chips (s : State) (x : Word) : (returned (x, s)).chips = s.chips := rfl
@[simp] theorem returned_trace (s : State) (x : Word) : (returned (x, s)).trace = s.trace ++ [.readValue x] := rfl
@[simp] theorem returned_hostOps (s : State) (x : Word) : (returned (x, s)).hostOps = s.hostOps := rfl
@[simp] theorem returned_voice (s : State) (x : Word) (v : VoiceIx) : (returned (x, s)).voice v = s.voice v := rfl

/-! ## construct -/

@[simp] theorem construct_params (s : State) (p : Params) : (construct p s).params = p := rfl
@[simp] theorem construct_activeVoiceCount (s : State) (p : Params) : (construct p s).activeVoiceCount = 31 := rfl
@[simp] theorem construct_currentPage (s : State) (p : Params) : (construct p s).currentPage = 0x00 := rfl
@[simp] theorem construct_irqVector (s : State) (p : Params) : (construct p s).irqVector = 0x80 := rfl
@[simp] theorem construct_mode (s : State) (p : Params) : (construct p s).mode = 0 := rfl
@[simp] theorem construct_wst (s : State) (p : Params) : (construct p s).wst = 0 := rfl
@[simp] theorem construct_wend (s : State) (p : Params) : (construct p s).wend = 0 := rfl
@[simp] theorem construct_lrend (s : State) (p : Params) : (construct p s).lrend = 0 := rfl
@[simp] theorem construct_writeLatch (s : State) (p : Params) : (construct p s).writeLatch = 0 := rfl
@[simp] theorem construct_readLatch (s : State) (p : Params) : (construct p s).readLatch = 0 := rfl
@[simp] theorem construct_voices (s : State) (p : Params) : (construct p s).voices = Vector.replicate 32 Voice.fresh := rfl
@[simp] theorem construct_portReads (s : State) (p : Params) : (construct p s).portReads = s.portReads := rfl
@[simp] theorem construct_filterDraws (s : State) (p : Params) : (construct p s).filterDraws = s.filterDraws := rfl
@[simp] theorem construct_chips (s : State) (p : Params) : (construct p s).chips = s.chips + 1 := rfl
@[simp] theorem construct_trace (s : State) (p : Params) : (construct p s).trace = s.trace := rfl
@[simp] theorem construct_hostOps (s : State) (p : Params) : (construct p s).hostOps = s.hostOps := rfl
@[simp] theorem construct_voice (s : State) (p : Params) (v : VoiceIx) : (construct p s).voice v = Voice.fresh := State.voice_fresh p v

/-! ## Page and selection -/

@[simp] theorem State.setVoice_sel (s : State) (v : VoiceIx) (x : Voice) : (s.setVoice v x).sel = s.sel := rfl
@[simp] theorem State.updSel_sel (s : State) (f : Voice → Voice) : (s.updSel f).sel = s.sel := rfl
@[simp] theorem State.emit_sel (s : State) (e : Output) : (s.emit e).sel = s.sel := rfl
@[simp] theorem State.updSel_groupBits (s : State) (f : Voice → Voice) : (s.updSel f).groupBits = s.groupBits := rfl
@[simp] theorem State.emit_groupBits (s : State) (e : Output) : (s.emit e).groupBits = s.groupBits := rfl
@[simp] theorem State.setVoice_activeVoices (s : State) (v : VoiceIx) (x : Voice) :
    (s.setVoice v x).activeVoices = s.activeVoices := rfl
@[simp] theorem State.emit_activeVoices (s : State) (e : Output) : (s.emit e).activeVoices = s.activeVoices := rfl

@[simp] theorem State.updSel_voice_sel (s : State) (f : Voice → Voice) : (s.updSel f).voice s.sel = f (s.voice s.sel) := by
  simp [State.updSel, State.selVoice]

theorem State.updSel_voice_ne (s : State) (f : Voice → Voice) {w : VoiceIx} (h : w ≠ s.sel) :
    (s.updSel f).voice w = s.voice w := State.voice_setVoice_ne s _ h


/-! ## setBits -/

@[simp] theorem setBits_control (v : Voice) (mask : Hword) : (setBits mask v).control = v.control ||| mask := rfl
@[simp] theorem setBits_freqCount (v : Voice) (mask : Hword) : (setBits mask v).freqCount = v.freqCount := rfl
@[simp] theorem setBits_start (v : Voice) (mask : Hword) : (setBits mask v).start = v.start := rfl
@[simp] theorem setBits_endAddr (v : Voice) (mask : Hword) : (setBits mask v).endAddr = v.endAddr := rfl
@[simp] theorem setBits_accum (v : Voice) (mask : Hword) : (setBits mask v).accum = v.accum := rfl
@[simp] theorem setBits_lvol (v : Voice) (mask : Hword) : (setBits mask v).lvol = v.lvol := rfl
@[simp] theorem setBits_rvol (v : Voice) (mask : Hword) : (setBits mask v).rvol = v.rvol := rfl
@[simp] theorem setBits_lvramp (v : Voice) (mask : Hword) : (setBits mask v).lvramp = v.lvramp := rfl
@[simp] theorem setBits_rvramp (v : Voice) (mask : Hword) : (setBits mask v).rvramp = v.rvramp := rfl
@[simp] theorem setBits_k1 (v : Voice) (mask : Hword) : (setBits mask v).k1 = v.k1 := rfl
@[simp] theorem setBits_k2 (v : Voice) (mask : Hword) : (setBits mask v).k2 = v.k2 := rfl
@[simp] theorem setBits_k1ramp (v : Voice) (mask : Hword) : (setBits mask v).k1ramp = v.k1ramp := rfl
@[simp] theorem setBits_k2ramp (v : Voice) (mask : Hword) : (setBits mask v).k2ramp = v.k2ramp := rfl
@[simp] theorem setBits_o1n1 (v : Voice) (mask : Hword) : (setBits mask v).o1n1 = v.o1n1 := rfl
@[simp] theorem setBits_o2n1 (v : Voice) (mask : Hword) : (setBits mask v).o2n1 = v.o2n1 := rfl
@[simp] theorem setBits_o2n2 (v : Voice) (mask : Hword) : (setBits mask v).o2n2 = v.o2n2 := rfl
@[simp] theorem setBits_o3n1 (v : Voice) (mask : Hword) : (setBits mask v).o3n1 = v.o3n1 := rfl
@[simp] theorem setBits_o3n2 (v : Voice) (mask : Hword) : (setBits mask v).o3n2 = v.o3n2 := rfl
@[simp] theorem setBits_o4n1 (v : Voice) (mask : Hword) : (setBits mask v).o4n1 = v.o4n1 := rfl
@[simp] theorem setBits_ecount (v : Voice) (mask : Hword) : (setBits mask v).ecount = v.ecount := rfl
@[simp] theorem setBits_filtCount (v : Voice) (mask : Hword) : (setBits mask v).filtCount = v.filtCount := rfl
@[simp] theorem setBits_exBank (v : Voice) (mask : Hword) : (setBits mask v).exBank = v.exBank := rfl

/-! ## clearBits -/

@[simp] theorem clearBits_control (v : Voice) (mask : Hword) : (clearBits mask v).control = v.control &&& ~~~mask := rfl
@[simp] theorem clearBits_freqCount (v : Voice) (mask : Hword) : (clearBits mask v).freqCount = v.freqCount := rfl
@[simp] theorem clearBits_start (v : Voice) (mask : Hword) : (clearBits mask v).start = v.start := rfl
@[simp] theorem clearBits_endAddr (v : Voice) (mask : Hword) : (clearBits mask v).endAddr = v.endAddr := rfl
@[simp] theorem clearBits_accum (v : Voice) (mask : Hword) : (clearBits mask v).accum = v.accum := rfl
@[simp] theorem clearBits_lvol (v : Voice) (mask : Hword) : (clearBits mask v).lvol = v.lvol := rfl
@[simp] theorem clearBits_rvol (v : Voice) (mask : Hword) : (clearBits mask v).rvol = v.rvol := rfl
@[simp] theorem clearBits_lvramp (v : Voice) (mask : Hword) : (clearBits mask v).lvramp = v.lvramp := rfl
@[simp] theorem clearBits_rvramp (v : Voice) (mask : Hword) : (clearBits mask v).rvramp = v.rvramp := rfl
@[simp] theorem clearBits_k1 (v : Voice) (mask : Hword) : (clearBits mask v).k1 = v.k1 := rfl
@[simp] theorem clearBits_k2 (v : Voice) (mask : Hword) : (clearBits mask v).k2 = v.k2 := rfl
@[simp] theorem clearBits_k1ramp (v : Voice) (mask : Hword) : (clearBits mask v).k1ramp = v.k1ramp := rfl
@[simp] theorem clearBits_k2ramp (v : Voice) (mask : Hword) : (clearBits mask v).k2ramp = v.k2ramp := rfl
@[simp] theorem clearBits_o1n1 (v : Voice) (mask : Hword) : (clearBits mask v).o1n1 = v.o1n1 := rfl
@[simp] theorem clearBits_o2n1 (v : Voice) (mask : Hword) : (clearBits mask v).o2n1 = v.o2n1 := rfl
@[simp] theorem clearBits_o2n2 (v : Voice) (mask : Hword) : (clearBits mask v).o2n2 = v.o2n2 := rfl
@[simp] theorem clearBits_o3n1 (v : Voice) (mask : Hword) : (clearBits mask v).o3n1 = v.o3n1 := rfl
@[simp] theorem clearBits_o3n2 (v : Voice) (mask : Hword) : (clearBits mask v).o3n2 = v.o3n2 := rfl
@[simp] theorem clearBits_o4n1 (v : Voice) (mask : Hword) : (clearBits mask v).o4n1 = v.o4n1 := rfl
@[simp] theorem clearBits_ecount (v : Voice) (mask : Hword) : (clearBits mask v).ecount = v.ecount := rfl
@[simp] theorem clearBits_filtCount (v : Voice) (mask : Hword) : (clearBits mask v).filtCount = v.filtCount := rfl
@[simp] theorem clearBits_exBank (v : Voice) (mask : Hword) : (clearBits mask v).exBank = v.exBank := rfl

/-! ## setStop0 -/

@[simp] theorem setStop0_control (v : Voice) : (setStop0 v).control = v.control ||| 0x0001 := rfl
@[simp] theorem setStop0_freqCount (v : Voice) : (setStop0 v).freqCount = v.freqCount := rfl
@[simp] theorem setStop0_start (v : Voice) : (setStop0 v).start = v.start := rfl
@[simp] theorem setStop0_endAddr (v : Voice) : (setStop0 v).endAddr = v.endAddr := rfl
@[simp] theorem setStop0_accum (v : Voice) : (setStop0 v).accum = v.accum := rfl
@[simp] theorem setStop0_lvol (v : Voice) : (setStop0 v).lvol = v.lvol := rfl
@[simp] theorem setStop0_rvol (v : Voice) : (setStop0 v).rvol = v.rvol := rfl
@[simp] theorem setStop0_lvramp (v : Voice) : (setStop0 v).lvramp = v.lvramp := rfl
@[simp] theorem setStop0_rvramp (v : Voice) : (setStop0 v).rvramp = v.rvramp := rfl
@[simp] theorem setStop0_k1 (v : Voice) : (setStop0 v).k1 = v.k1 := rfl
@[simp] theorem setStop0_k2 (v : Voice) : (setStop0 v).k2 = v.k2 := rfl
@[simp] theorem setStop0_k1ramp (v : Voice) : (setStop0 v).k1ramp = v.k1ramp := rfl
@[simp] theorem setStop0_k2ramp (v : Voice) : (setStop0 v).k2ramp = v.k2ramp := rfl
@[simp] theorem setStop0_o1n1 (v : Voice) : (setStop0 v).o1n1 = v.o1n1 := rfl
@[simp] theorem setStop0_o2n1 (v : Voice) : (setStop0 v).o2n1 = v.o2n1 := rfl
@[simp] theorem setStop0_o2n2 (v : Voice) : (setStop0 v).o2n2 = v.o2n2 := rfl
@[simp] theorem setStop0_o3n1 (v : Voice) : (setStop0 v).o3n1 = v.o3n1 := rfl
@[simp] theorem setStop0_o3n2 (v : Voice) : (setStop0 v).o3n2 = v.o3n2 := rfl
@[simp] theorem setStop0_o4n1 (v : Voice) : (setStop0 v).o4n1 = v.o4n1 := rfl
@[simp] theorem setStop0_ecount (v : Voice) : (setStop0 v).ecount = v.ecount := rfl
@[simp] theorem setStop0_filtCount (v : Voice) : (setStop0 v).filtCount = v.filtCount := rfl
@[simp] theorem setStop0_exBank (v : Voice) : (setStop0 v).exBank = v.exBank := rfl

/-! ## setIrq -/

@[simp] theorem setIrq_control (v : Voice) : (setIrq v).control = v.control ||| 0x0080 := rfl
@[simp] theorem setIrq_freqCount (v : Voice) : (setIrq v).freqCount = v.freqCount := rfl
@[simp] theorem setIrq_start (v : Voice) : (setIrq v).start = v.start := rfl
@[simp] theorem setIrq_endAddr (v : Voice) : (setIrq v).endAddr = v.endAddr := rfl
@[simp] theorem setIrq_accum (v : Voice) : (setIrq v).accum = v.accum := rfl
@[simp] theorem setIrq_lvol (v : Voice) : (setIrq v).lvol = v.lvol := rfl
@[simp] theorem setIrq_rvol (v : Voice) : (setIrq v).rvol = v.rvol := rfl
@[simp] theorem setIrq_lvramp (v : Voice) : (setIrq v).lvramp = v.lvramp := rfl
@[simp] theorem setIrq_rvramp (v : Voice) : (setIrq v).rvramp = v.rvramp := rfl
@[simp] theorem setIrq_k1 (v : Voice) : (setIrq v).k1 = v.k1 := rfl
@[simp] theorem setIrq_k2 (v : Voice) : (setIrq v).k2 = v.k2 := rfl
@[simp] theorem setIrq_k1ramp (v : Voice) : (setIrq v).k1ramp = v.k1ramp := rfl
@[simp] theorem setIrq_k2ramp (v : Voice) : (setIrq v).k2ramp = v.k2ramp := rfl
@[simp] theorem setIrq_o1n1 (v : Voice) : (setIrq v).o1n1 = v.o1n1 := rfl
@[simp] theorem setIrq_o2n1 (v : Voice) : (setIrq v).o2n1 = v.o2n1 := rfl
@[simp] theorem setIrq_o2n2 (v : Voice) : (setIrq v).o2n2 = v.o2n2 := rfl
@[simp] theorem setIrq_o3n1 (v : Voice) : (setIrq v).o3n1 = v.o3n1 := rfl
@[simp] theorem setIrq_o3n2 (v : Voice) : (setIrq v).o3n2 = v.o3n2 := rfl
@[simp] theorem setIrq_o4n1 (v : Voice) : (setIrq v).o4n1 = v.o4n1 := rfl
@[simp] theorem setIrq_ecount (v : Voice) : (setIrq v).ecount = v.ecount := rfl
@[simp] theorem setIrq_filtCount (v : Voice) : (setIrq v).filtCount = v.filtCount := rfl
@[simp] theorem setIrq_exBank (v : Voice) : (setIrq v).exBank = v.exBank := rfl

/-! ## clearIrq -/

@[simp] theorem clearIrq_control (v : Voice) : (clearIrq v).control = v.control &&& ~~~0x0080 := rfl
@[simp] theorem clearIrq_freqCount (v : Voice) : (clearIrq v).freqCount = v.freqCount := rfl
@[simp] theorem clearIrq_start (v : Voice) : (clearIrq v).start = v.start := rfl
@[simp] theorem clearIrq_endAddr (v : Voice) : (clearIrq v).endAddr = v.endAddr := rfl
@[simp] theorem clearIrq_accum (v : Voice) : (clearIrq v).accum = v.accum := rfl
@[simp] theorem clearIrq_lvol (v : Voice) : (clearIrq v).lvol = v.lvol := rfl
@[simp] theorem clearIrq_rvol (v : Voice) : (clearIrq v).rvol = v.rvol := rfl
@[simp] theorem clearIrq_lvramp (v : Voice) : (clearIrq v).lvramp = v.lvramp := rfl
@[simp] theorem clearIrq_rvramp (v : Voice) : (clearIrq v).rvramp = v.rvramp := rfl
@[simp] theorem clearIrq_k1 (v : Voice) : (clearIrq v).k1 = v.k1 := rfl
@[simp] theorem clearIrq_k2 (v : Voice) : (clearIrq v).k2 = v.k2 := rfl
@[simp] theorem clearIrq_k1ramp (v : Voice) : (clearIrq v).k1ramp = v.k1ramp := rfl
@[simp] theorem clearIrq_k2ramp (v : Voice) : (clearIrq v).k2ramp = v.k2ramp := rfl
@[simp] theorem clearIrq_o1n1 (v : Voice) : (clearIrq v).o1n1 = v.o1n1 := rfl
@[simp] theorem clearIrq_o2n1 (v : Voice) : (clearIrq v).o2n1 = v.o2n1 := rfl
@[simp] theorem clearIrq_o2n2 (v : Voice) : (clearIrq v).o2n2 = v.o2n2 := rfl
@[simp] theorem clearIrq_o3n1 (v : Voice) : (clearIrq v).o3n1 = v.o3n1 := rfl
@[simp] theorem clearIrq_o3n2 (v : Voice) : (clearIrq v).o3n2 = v.o3n2 := rfl
@[simp] theorem clearIrq_o4n1 (v : Voice) : (clearIrq v).o4n1 = v.o4n1 := rfl
@[simp] theorem clearIrq_ecount (v : Voice) : (clearIrq v).ecount = v.ecount := rfl
@[simp] theorem clearIrq_filtCount (v : Voice) : (clearIrq v).filtCount = v.filtCount := rfl
@[simp] theorem clearIrq_exBank (v : Voice) : (clearIrq v).exBank = v.exBank := rfl

/-! ## setDir -/

@[simp] theorem setDir_control (v : Voice) : (setDir v).control = v.control ||| 0x0040 := rfl
@[simp] theorem setDir_freqCount (v : Voice) : (setDir v).freqCount = v.freqCount := rfl
@[simp] theorem setDir_start (v : Voice) : (setDir v).start = v.start := rfl
@[simp] theorem setDir_endAddr (v : Voice) : (setDir v).endAddr = v.endAddr := rfl
@[simp] theorem setDir_accum (v : Voice) : (setDir v).accum = v.accum := rfl
@[simp] theorem setDir_lvol (v : Voice) : (setDir v).lvol = v.lvol := rfl
@[simp] theorem setDir_rvol (v : Voice) : (setDir v).rvol = v.rvol := rfl
@[simp] theorem setDir_lvramp (v : Voice) : (setDir v).lvramp = v.lvramp := rfl
@[simp] theorem setDir_rvramp (v : Voice) : (setDir v).rvramp = v.rvramp := rfl
@[simp] theorem setDir_k1 (v : Voice) : (setDir v).k1 = v.k1 := rfl
@[simp] theorem setDir_k2 (v : Voice) : (setDir v).k2 = v.k2 := rfl
@[simp] theorem setDir_k1ramp (v : Voice) : (setDir v).k1ramp = v.k1ramp := rfl
@[simp] theorem setDir_k2ramp (v : Voice) : (setDir v).k2ramp = v.k2ramp := rfl
@[simp] theorem setDir_o1n1 (v : Voice) : (setDir v).o1n1 = v.o1n1 := rfl
@[simp] theorem setDir_o2n1 (v : Voice) : (setDir v).o2n1 = v.o2n1 := rfl
@[simp] theorem setDir_o2n2 (v : Voice) : (setDir v).o2n2 = v.o2n2 := rfl
@[simp] theorem setDir_o3n1 (v : Voice) : (setDir v).o3n1 = v.o3n1 := rfl
@[simp] theorem setDir_o3n2 (v : Voice) : (setDir v).o3n2 = v.o3n2 := rfl
@[simp] theorem setDir_o4n1 (v : Voice) : (setDir v).o4n1 = v.o4n1 := rfl
@[simp] theorem setDir_ecount (v : Voice) : (setDir v).ecount = v.ecount := rfl
@[simp] theorem setDir_filtCount (v : Voice) : (setDir v).filtCount = v.filtCount := rfl
@[simp] theorem setDir_exBank (v : Voice) : (setDir v).exBank = v.exBank := rfl

/-! ## clearDir -/

@[simp] theorem clearDir_control (v : Voice) : (clearDir v).control = v.control &&& ~~~0x0040 := rfl
@[simp] theorem clearDir_freqCount (v : Voice) : (clearDir v).freqCount = v.freqCount := rfl
@[simp] theorem clearDir_start (v : Voice) : (clearDir v).start = v.start := rfl
@[simp] theorem clearDir_endAddr (v : Voice) : (clearDir v).endAddr = v.endAddr := rfl
@[simp] theorem clearDir_accum (v : Voice) : (clearDir v).accum = v.accum := rfl
@[simp] theorem clearDir_lvol (v : Voice) : (clearDir v).lvol = v.lvol := rfl
@[simp] theorem clearDir_rvol (v : Voice) : (clearDir v).rvol = v.rvol := rfl
@[simp] theorem clearDir_lvramp (v : Voice) : (clearDir v).lvramp = v.lvramp := rfl
@[simp] theorem clearDir_rvramp (v : Voice) : (clearDir v).rvramp = v.rvramp := rfl
@[simp] theorem clearDir_k1 (v : Voice) : (clearDir v).k1 = v.k1 := rfl
@[simp] theorem clearDir_k2 (v : Voice) : (clearDir v).k2 = v.k2 := rfl
@[simp] theorem clearDir_k1ramp (v : Voice) : (clearDir v).k1ramp = v.k1ramp := rfl
@[simp] theorem clearDir_k2ramp (v : Voice) : (clearDir v).k2ramp = v.k2ramp := rfl
@[simp] theorem clearDir_o1n1 (v : Voice) : (clearDir v).o1n1 = v.o1n1 := rfl
@[simp] theorem clearDir_o2n1 (v : Voice) : (clearDir v).o2n1 = v.o2n1 := rfl
@[simp] theorem clearDir_o2n2 (v : Voice) : (clearDir v).o2n2 = v.o2n2 := rfl
@[simp] theorem clearDir_o3n1 (v : Voice) : (clearDir v).o3n1 = v.o3n1 := rfl
@[simp] theorem clearDir_o3n2 (v : Voice) : (clearDir v).o3n2 = v.o3n2 := rfl
@[simp] theorem clearDir_o4n1 (v : Voice) : (clearDir v).o4n1 = v.o4n1 := rfl
@[simp] theorem clearDir_ecount (v : Voice) : (clearDir v).ecount = v.ecount := rfl
@[simp] theorem clearDir_filtCount (v : Voice) : (clearDir v).filtCount = v.filtCount := rfl
@[simp] theorem clearDir_exBank (v : Voice) : (clearDir v).exBank = v.exBank := rfl

/-! ## spendOneShot -/

@[simp] theorem spendOneShot_control (v : Voice) : (spendOneShot v).control = (v.control &&& ~~~0x0018) ||| 0x0004 := rfl
@[simp] theorem spendOneShot_freqCount (v : Voice) : (spendOneShot v).freqCount = v.freqCount := rfl
@[simp] theorem spendOneShot_start (v : Voice) : (spendOneShot v).start = v.start := rfl
@[simp] theorem spendOneShot_endAddr (v : Voice) : (spendOneShot v).endAddr = v.endAddr := rfl
@[simp] theorem spendOneShot_accum (v : Voice) : (spendOneShot v).accum = v.accum := rfl
@[simp] theorem spendOneShot_lvol (v : Voice) : (spendOneShot v).lvol = v.lvol := rfl
@[simp] theorem spendOneShot_rvol (v : Voice) : (spendOneShot v).rvol = v.rvol := rfl
@[simp] theorem spendOneShot_lvramp (v : Voice) : (spendOneShot v).lvramp = v.lvramp := rfl
@[simp] theorem spendOneShot_rvramp (v : Voice) : (spendOneShot v).rvramp = v.rvramp := rfl
@[simp] theorem spendOneShot_k1 (v : Voice) : (spendOneShot v).k1 = v.k1 := rfl
@[simp] theorem spendOneShot_k2 (v : Voice) : (spendOneShot v).k2 = v.k2 := rfl
@[simp] theorem spendOneShot_k1ramp (v : Voice) : (spendOneShot v).k1ramp = v.k1ramp := rfl
@[simp] theorem spendOneShot_k2ramp (v : Voice) : (spendOneShot v).k2ramp = v.k2ramp := rfl
@[simp] theorem spendOneShot_o1n1 (v : Voice) : (spendOneShot v).o1n1 = v.o1n1 := rfl
@[simp] theorem spendOneShot_o2n1 (v : Voice) : (spendOneShot v).o2n1 = v.o2n1 := rfl
@[simp] theorem spendOneShot_o2n2 (v : Voice) : (spendOneShot v).o2n2 = v.o2n2 := rfl
@[simp] theorem spendOneShot_o3n1 (v : Voice) : (spendOneShot v).o3n1 = v.o3n1 := rfl
@[simp] theorem spendOneShot_o3n2 (v : Voice) : (spendOneShot v).o3n2 = v.o3n2 := rfl
@[simp] theorem spendOneShot_o4n1 (v : Voice) : (spendOneShot v).o4n1 = v.o4n1 := rfl
@[simp] theorem spendOneShot_ecount (v : Voice) : (spendOneShot v).ecount = v.ecount := rfl
@[simp] theorem spendOneShot_filtCount (v : Voice) : (spendOneShot v).filtCount = v.filtCount := rfl
@[simp] theorem spendOneShot_exBank (v : Voice) : (spendOneShot v).exBank = v.exBank := rfl

/-! ## advance -/

@[simp] theorem advance_control (v : Voice) (mask : Word) : (advance mask v).control = v.control := rfl
@[simp] theorem advance_freqCount (v : Voice) (mask : Word) : (advance mask v).freqCount = v.freqCount := rfl
@[simp] theorem advance_start (v : Voice) (mask : Word) : (advance mask v).start = v.start := rfl
@[simp] theorem advance_endAddr (v : Voice) (mask : Word) : (advance mask v).endAddr = v.endAddr := rfl
@[simp] theorem advance_accum (v : Voice) (mask : Word) : (advance mask v).accum = (if v.dir then v.accum - v.freqCount else v.accum + v.freqCount) &&& mask := rfl
@[simp] theorem advance_lvol (v : Voice) (mask : Word) : (advance mask v).lvol = v.lvol := rfl
@[simp] theorem advance_rvol (v : Voice) (mask : Word) : (advance mask v).rvol = v.rvol := rfl
@[simp] theorem advance_lvramp (v : Voice) (mask : Word) : (advance mask v).lvramp = v.lvramp := rfl
@[simp] theorem advance_rvramp (v : Voice) (mask : Word) : (advance mask v).rvramp = v.rvramp := rfl
@[simp] theorem advance_k1 (v : Voice) (mask : Word) : (advance mask v).k1 = v.k1 := rfl
@[simp] theorem advance_k2 (v : Voice) (mask : Word) : (advance mask v).k2 = v.k2 := rfl
@[simp] theorem advance_k1ramp (v : Voice) (mask : Word) : (advance mask v).k1ramp = v.k1ramp := rfl
@[simp] theorem advance_k2ramp (v : Voice) (mask : Word) : (advance mask v).k2ramp = v.k2ramp := rfl
@[simp] theorem advance_o1n1 (v : Voice) (mask : Word) : (advance mask v).o1n1 = v.o1n1 := rfl
@[simp] theorem advance_o2n1 (v : Voice) (mask : Word) : (advance mask v).o2n1 = v.o2n1 := rfl
@[simp] theorem advance_o2n2 (v : Voice) (mask : Word) : (advance mask v).o2n2 = v.o2n2 := rfl
@[simp] theorem advance_o3n1 (v : Voice) (mask : Word) : (advance mask v).o3n1 = v.o3n1 := rfl
@[simp] theorem advance_o3n2 (v : Voice) (mask : Word) : (advance mask v).o3n2 = v.o3n2 := rfl
@[simp] theorem advance_o4n1 (v : Voice) (mask : Word) : (advance mask v).o4n1 = v.o4n1 := rfl
@[simp] theorem advance_ecount (v : Voice) (mask : Word) : (advance mask v).ecount = v.ecount := rfl
@[simp] theorem advance_filtCount (v : Voice) (mask : Word) : (advance mask v).filtCount = v.filtCount := rfl
@[simp] theorem advance_exBank (v : Voice) (mask : Word) : (advance mask v).exBank = v.exBank := rfl

end Sys2Proof.Machine
end

