-- ==== Sys2Proof/Laws/Engine.lean ====
section
/-! SUPPORT. What the engine can do to a voice: one relation, which each stage of a sample satisfies, and with it a
voice's whole batch. -/

namespace Sys2Proof.Machine

/-! ## Masks of the control register -/

theorem or_and_of_disjoint {n : Nat} (x : BitVec n) {m k : BitVec n} (h : m &&& k = 0) :
    (x ||| m) &&& k = x &&& k := by
  have e : (x ||| m) &&& k = (x &&& k) ||| (m &&& k) := by
    ext i hi; simp only [BitVec.getElem_and, BitVec.getElem_or, Bool.and_or_distrib_right]
  rw [e, h]; simp

theorem and_not_and_of_disjoint {n : Nat} (x : BitVec n) {m k : BitVec n} (h : m &&& k = 0) :
    (x &&& ~~~m) &&& k = x &&& k := by
  ext i hi
  have hb : (m &&& k)[i] = (0 : BitVec n)[i] := by rw [h]
  rw [BitVec.getElem_and, show (0 : BitVec n) = 0#n from rfl, BitVec.getElem_zero] at hb
  simp only [BitVec.getElem_and, BitVec.getElem_not]
  revert hb
  cases k[i] <;> cases m[i] <;> simp

/-! ## The relation -/

/-- What the engine may do to a voice (R63, R208): it keeps every host register and the control bits it does not own,
clears no stop bit, LEI or IRQ, and sets IRQ only where IRQE is set. -/
structure Plays (v w : Voice) : Prop where
  freqCount : w.freqCount = v.freqCount
  start : w.start = v.start
  endAddr : w.endAddr = v.endAddr
  lvramp : w.lvramp = v.lvramp
  rvramp : w.rvramp = v.rvramp
  k1ramp : w.k1ramp = v.k1ramp
  k2ramp : w.k2ramp = v.k2ramp
  exBank : w.exBank = v.exBank
  control : w.control &&& 0xFF22 = v.control &&& 0xFF22
  stays : ∀ bit < 3, v.control.getLsbD bit = true → w.control.getLsbD bit = true
  pending : v.irq = true → w.irq = true
  raised : w.irq = true → v.irq = true ∨ v.irqe = true

theorem Plays.refl (v : Voice) : Plays v v :=
  ⟨rfl, rfl, rfl, rfl, rfl, rfl, rfl, rfl, rfl, fun _ _ h => h, fun h => h, fun h => .inl h⟩

theorem Plays.irqe {v w : Voice} (h : Plays v w) : w.irqe = v.irqe := by
  have := congrArg (fun b => b.getLsbD 5) h.control
  simpa [Voice.irqe] using this

theorem Plays.bank {v w : Voice} (h : Plays v w) : w.bank = v.bank := by
  ext i hi
  have := congrArg (fun b => b.getLsbD (14 + i)) h.control
  have hb : i = 0 ∨ i = 1 := by omega
  rcases hb with rfl | rfl <;> simpa [Voice.bank] using this

theorem Plays.trans {u v w : Voice} (h : Plays u v) (k : Plays v w) : Plays u w where
  freqCount := k.freqCount.trans h.freqCount
  start := k.start.trans h.start
  endAddr := k.endAddr.trans h.endAddr
  lvramp := k.lvramp.trans h.lvramp
  rvramp := k.rvramp.trans h.rvramp
  k1ramp := k.k1ramp.trans h.k1ramp
  k2ramp := k.k2ramp.trans h.k2ramp
  exBank := k.exBank.trans h.exBank
  control := k.control.trans h.control
  stays := fun bit hb hu => k.stays bit hb (h.stays bit hb hu)
  pending := fun hu => k.pending (h.pending hu)
  raised := fun hw => (k.raised hw).elim h.raised fun he => .inr (h.irqe ▸ he)

/-- A change of engine fields alone. -/
theorem Plays.of_control {v w : Voice} (h1 : w.freqCount = v.freqCount) (h2 : w.start = v.start)
    (h3 : w.endAddr = v.endAddr) (h4 : w.lvramp = v.lvramp) (h5 : w.rvramp = v.rvramp) (h6 : w.k1ramp = v.k1ramp)
    (h7 : w.k2ramp = v.k2ramp) (h8 : w.exBank = v.exBank) (h9 : w.control = v.control) : Plays v w :=
  ⟨h1, h2, h3, h4, h5, h6, h7, h8, by rw [h9], fun _ _ h => h9 ▸ h, fun h => by rw [Voice.irq, h9]; exact h,
    fun h => .inl (by rw [Voice.irq, ← h9]; exact h)⟩

/-- Setting a bit that the engine owns and that is not IRQ. -/
theorem Plays.setBits (v : Voice) {m : Hword} (h : m &&& 0xFF22 = 0) (h7 : m.getLsbD 7 = false) :
    Plays v (setBits m v) where
  freqCount := rfl
  start := rfl
  endAddr := rfl
  lvramp := rfl
  rvramp := rfl
  k1ramp := rfl
  k2ramp := rfl
  exBank := rfl
  control := or_and_of_disjoint _ h
  stays := fun bit _ hv => by simp only [Machine.setBits, BitVec.getLsbD_or, hv, Bool.true_or]
  pending := fun hv => by
    simp only [Machine.setBits, Voice.irq, BitVec.getLsbD_or] at hv ⊢
    simp only [hv, Bool.true_or]
  raised := fun hw => .inl (by simpa only [Machine.setBits, Voice.irq, BitVec.getLsbD_or, h7, Bool.or_false] using hw)

/-- Clearing bits that the engine owns and that are none of the stop bits, LEI or IRQ. -/
theorem Plays.clearBits (v : Voice) {m : Hword} (h : m &&& 0xFF22 = 0) (h7 : m.getLsbD 7 = false)
    (hs : ∀ bit < 3, m.getLsbD bit = false) : Plays v (clearBits m v) where
  freqCount := rfl
  start := rfl
  endAddr := rfl
  lvramp := rfl
  rvramp := rfl
  k1ramp := rfl
  k2ramp := rfl
  exBank := rfl
  control := and_not_and_of_disjoint _ h
  stays := fun bit hb hv => by
    simp only [Machine.clearBits, BitVec.getLsbD_and, BitVec.getLsbD_not, hs bit hb, hv]
    simp only [Bool.true_and, Bool.not_false, Bool.and_true, decide_eq_true_eq]
    omega
  pending := fun hv => by
    simp only [Machine.clearBits, Voice.irq, BitVec.getLsbD_and, BitVec.getLsbD_not] at hv ⊢
    simp only [hv, h7]
    decide
  raised := fun hw => by
    simp only [Machine.clearBits, Voice.irq, BitVec.getLsbD_and, Bool.and_eq_true] at hw ⊢
    exact .inl hw.1

/-! ## The stages -/

theorem plays_setStop0 (v : Voice) : Plays v (setStop0 v) := Plays.setBits v (by decide) (by decide)

theorem plays_setDir (v : Voice) : Plays v (setDir v) := Plays.setBits v (by decide) (by decide)

theorem plays_clearDir (v : Voice) : Plays v (clearDir v) := Plays.clearBits v (by decide) (by decide) (by decide)

theorem plays_spendOneShot (v : Voice) : Plays v (spendOneShot v) :=
  (Plays.clearBits v (by decide) (by decide) (by decide)).trans (Plays.setBits _ (by decide) (by decide))

theorem plays_setIrq (v : Voice) (h : v.irqe = true) : Plays v (setIrq v) where
  freqCount := rfl
  start := rfl
  endAddr := rfl
  lvramp := rfl
  rvramp := rfl
  k1ramp := rfl
  k2ramp := rfl
  exBank := rfl
  control := or_and_of_disjoint _ (by decide)
  stays := fun bit _ hv => by simp only [setIrq, setBits, BitVec.getLsbD_or, hv, Bool.true_or]
  pending := fun hv => by
    simp only [setIrq, setBits, Voice.irq, BitVec.getLsbD_or] at hv ⊢
    simp only [hv, Bool.true_or]
  raised := fun _ => .inr h

theorem plays_requestIrq (v : Voice) : Plays v (requestIrq v) := by
  unfold requestIrq
  split
  · exact plays_setIrq v (by assumption)
  · exact Plays.refl v

theorem plays_accum (v : Voice) (a : Word) : Plays v { v with accum := a } :=
  Plays.of_control rfl rfl rfl rfl rfl rfl rfl rfl rfl

theorem plays_advance (mask : Word) (v : Voice) : Plays v (advance mask v) := plays_accum v _

theorem plays_resolve (mask : Word) (v : Voice) : Plays v (resolve mask v) := by
  unfold resolve
  split
  · exact plays_setStop0 v
  · exact plays_accum v _
  · exact (plays_accum v _).trans (plays_spendOneShot _)
  · split
    · exact (plays_accum v _).trans (plays_clearDir _)
    · exact (plays_accum v _).trans (plays_setDir _)

theorem plays_boundary (mask : Word) (v : Voice) : Plays v (boundary mask v) := by
  unfold boundary
  split
  · exact (plays_requestIrq v).trans (plays_resolve mask _)
  · exact Plays.refl v

theorem plays_envelope (v : Voice) (n : Nat) : Plays v (envelope v n) := by
  unfold envelope
  split
  · exact Plays.refl v
  · exact Plays.of_control rfl rfl rfl rfl rfl rfl rfl rfl rfl

/-- A filter call writes nothing but the history. -/
theorem plays_filter (mode : FilterOverflow) (v : Voice) (x : Int) (draws : Nat) :
    Plays v (filter mode v x draws).voice := by
  unfold filter
  simp only
  split <;> exact Plays.of_control rfl rfl rfl rfl rfl rfl rfl rfl rfl

theorem plays_stopIfDegenerate (v : Voice) : Plays v (stopIfDegenerate v) := by
  unfold stopIfDegenerate
  split
  · exact plays_setStop0 v
  · exact Plays.refl v

theorem plays_enterPass (mask : Word) (v : Voice) : Plays v (enterPass mask v) :=
  (plays_stopIfDegenerate v).trans (plays_accum _ _)

theorem plays_sample (p : Params) (chip : Nat) (path : Path) (r : Run) (slot : Slot) :
    Plays r.voice (sample p chip path r slot).1.voice := by
  unfold sample
  cases path with
  | silent => exact ((plays_advance _ _).trans (plays_envelope _ _)).trans (plays_boundary _ _)
  | sound law m =>
    exact (((plays_advance _ _).trans (plays_filter _ _ _ _)).trans (plays_envelope _ _)).trans (plays_boundary _ _)

/-! ## A batch -/

/-- The batch of a stopped voice: nothing is added, the envelope runs once for all slots (R229). -/
theorem playBatch_stopped (p : Params) (chip : Nat) (path : Path) (r : Run) (slots : List Slot)
    (h : r.voice.stopped = true) (hs : slots ≠ []) :
    playBatch p chip path r slots = (⟨envelope r.voice slots.length, r.draws⟩, slots) := by
  cases slots with
  | nil => exact absurd rfl hs
  | cons slot slots => rw [playBatch, if_pos h, List.length_cons]

/-- The batch of a voice that is not stopped: one sample, then the batch of what it leaves (R226). -/
theorem playBatch_cons (p : Params) (chip : Nat) (path : Path) (r : Run) (slot : Slot) (slots : List Slot)
    (h : r.voice.stopped = false) :
    playBatch p chip path r (slot :: slots)
      = ((playBatch p chip path (sample p chip path r slot).1 slots).1,
        (sample p chip path r slot).2 :: (playBatch p chip path (sample p chip path r slot).1 slots).2) := by
  rw [playBatch, h]
  rfl

@[simp] theorem playBatch_nil (p : Params) (chip : Nat) (path : Path) (r : Run) :
    playBatch p chip path r [] = (r, []) := rfl

theorem plays_playBatch (p : Params) (chip : Nat) (path : Path) (r : Run) (slots : List Slot) :
    Plays r.voice (playBatch p chip path r slots).1.voice := by
  induction slots generalizing r with
  | nil => exact Plays.refl _
  | cons slot slots ih =>
    cases h : r.voice.stopped with
    | true => rw [playBatch_stopped _ _ _ _ _ h (by simp)]; exact plays_envelope _ _
    | false => rw [playBatch_cons _ _ _ _ _ _ h]; exact (plays_sample p chip path r slot).trans (ih _)

@[simp] theorem playBatch_length (p : Params) (chip : Nat) (path : Path) (r : Run) (slots : List Slot) :
    (playBatch p chip path r slots).2.length = slots.length := by
  induction slots generalizing r with
  | nil => rfl
  | cons slot slots ih =>
    cases h : r.voice.stopped with
    | true => rw [playBatch_stopped _ _ _ _ _ h (by simp)]
    | false => rw [playBatch_cons _ _ _ _ _ _ h]; simp [ih]

/-! ## A pass -/

@[simp] theorem voiceBatch_params (s : State) (v : VoiceIx) (slots : List Slot) :
    (voiceBatch s v slots).1.params = s.params := rfl
@[simp] theorem voiceBatch_activeVoiceCount (s : State) (v : VoiceIx) (slots : List Slot) :
    (voiceBatch s v slots).1.activeVoiceCount = s.activeVoiceCount := rfl
@[simp] theorem voiceBatch_chips (s : State) (v : VoiceIx) (slots : List Slot) :
    (voiceBatch s v slots).1.chips = s.chips := rfl

/-- The voice whose batch it is. -/
theorem voiceBatch_voice_same (s : State) (v : VoiceIx) (slots : List Slot) :
    (voiceBatch s v slots).1.voice v
      = (playBatch s.params s.chips (pathOf s.params (enterPass s.params.variant.accumMask (s.voice v)))
          ⟨enterPass s.params.variant.accumMask (s.voice v), s.filterDraws⟩ slots).1.voice :=
  State.voice_setVoice_same s v _

/-- Any other voice. -/
theorem voiceBatch_voice_ne (s : State) {v w : VoiceIx} (slots : List Slot) (h : w ≠ v) :
    (voiceBatch s v slots).1.voice w = s.voice w :=
  State.voice_setVoice_ne s _ h

theorem plays_voiceBatch (s : State) (v w : VoiceIx) (slots : List Slot) :
    Plays (s.voice w) ((voiceBatch s v slots).1.voice w) := by
  by_cases h : w = v
  · subst h
    rw [voiceBatch_voice_same]
    exact (plays_enterPass _ _).trans (plays_playBatch _ _ _ ⟨enterPass _ _, _⟩ _)
  · rw [voiceBatch_voice_ne s slots h]; exact Plays.refl _

@[simp] theorem voiceBatch_length (s : State) (v : VoiceIx) (slots : List Slot) :
    (voiceBatch s v slots).2.length = slots.length := playBatch_length ..

/-- Everything a mix leaves alone: all of the chip but its voices and the count of free filter values. -/
theorem mixVoices_frame (vs : List VoiceIx) (s : State) (slots : List Slot) :
    ∃ voices draws, (mixVoices s slots vs).1 = { s with voices := voices, filterDraws := draws } := by
  induction vs generalizing s slots with
  | nil => exact ⟨s.voices, s.filterDraws, rfl⟩
  | cons v vs ih =>
    obtain ⟨voices, draws, h⟩ := ih (voiceBatch s v slots).1 (voiceBatch s v slots).2
    exact ⟨voices, draws, h⟩

@[simp] theorem mixVoices_length (vs : List VoiceIx) (s : State) (slots : List Slot) :
    (mixVoices s slots vs).2.length = slots.length := by
  induction vs generalizing s slots with
  | nil => rfl
  | cons v vs ih => rw [mixVoices, ih]; exact voiceBatch_length ..

theorem plays_mixVoices (vs : List VoiceIx) (s : State) (slots : List Slot) (w : VoiceIx) :
    Plays (s.voice w) ((mixVoices s slots vs).1.voice w) := by
  induction vs generalizing s slots with
  | nil => exact Plays.refl _
  | cons v vs ih => exact (plays_voiceBatch s v w slots).trans (ih _ _)

/-- A voice that is not mixed is as it was. -/
theorem mixVoices_voice_of_not_mem (vs : List VoiceIx) (s : State) (slots : List Slot) {w : VoiceIx} (h : w ∉ vs) :
    (mixVoices s slots vs).1.voice w = s.voice w := by
  induction vs generalizing s slots with
  | nil => rfl
  | cons v vs ih =>
    rw [List.mem_cons, not_or] at h
    exact (ih _ _ h.2).trans (voiceBatch_voice_ne s slots h.1)

/-! ## The active voices -/

theorem mem_activeVoices (s : State) (v : VoiceIx) : v ∈ s.activeVoices ↔ v.toNat ≤ s.activeVoiceCount.toNat := by
  have hc := s.activeVoiceCount.isLt
  have hv := v.isLt
  simp only [State.activeVoices, List.mem_map, List.mem_range]
  constructor
  · rintro ⟨n, hn, rfl⟩
    rw [BitVec.toNat_ofNat, Nat.mod_eq_of_lt (by omega)]
    omega
  · exact fun h => ⟨v.toNat, by omega, by simp⟩

theorem activeVoices_nodup (s : State) : s.activeVoices.Nodup := by
  have hc := s.activeVoiceCount.isLt
  refine List.Nodup.map_on ?_ List.nodup_range
  intro a ha b hb h
  simp only [List.mem_range] at ha hb
  have := congrArg BitVec.toNat h
  rwa [BitVec.toNat_ofNat, BitVec.toNat_ofNat, Nat.mod_eq_of_lt (by omega), Nat.mod_eq_of_lt (by omega)] at this

theorem activeVoices_sorted (s : State) : s.activeVoices.Pairwise fun u v => u.toNat < v.toNat := by
  have hc := s.activeVoiceCount.isLt
  refine List.pairwise_map.mpr (List.pairwise_lt_range.imp_of_mem ?_)
  intro a b ha hb h
  rw [List.mem_range] at ha hb
  rwa [BitVec.toNat_ofNat, BitVec.toNat_ofNat, Nat.mod_eq_of_lt (by omega), Nat.mod_eq_of_lt (by omega)]

/-- The active voices before `v` are those numbered below it. -/
theorem mem_before_iff (s : State) {before after : List VoiceIx} {v : VoiceIx}
    (h : s.activeVoices = before ++ v :: after) (u : VoiceIx) : u ∈ before ↔ u.toNat < v.toNat := by
  have hs := activeVoices_sorted s
  rw [h, List.pairwise_append] at hs
  constructor
  · exact fun hu => hs.2.2 u hu v (by simp)
  · intro hu
    have hv : v ∈ s.activeVoices := by rw [h]; simp
    have hm : u ∈ s.activeVoices := (mem_activeVoices s u).mpr (by have := (mem_activeVoices s v).mp hv; omega)
    rw [h, List.mem_append, List.mem_cons] at hm
    rcases hm with hm | rfl | hm
    · exact hm
    · omega
    · have := List.rel_of_pairwise_cons hs.2.1 hm
      omega

/-! ## The arbiter -/

/-- A visit of the arbiter latches the voice when the vector is free and the voice pending, and else does nothing. -/
theorem arbitrateVoice_cases (s : State) (v : VoiceIx) :
    ((s.voice v).irq = true ∧ s.irqVector.getLsbD 7 = true ∧ arbitrateVoice s v
      = { s.setVoice v (clearIrq (s.voice v)) with irqVector := v.setWidth 8, trace := s.trace ++ [.irqLine true] })
    ∨ (((s.voice v).irq = false ∨ s.irqVector.getLsbD 7 = false) ∧ arbitrateVoice s v = s) := by
  unfold arbitrateVoice
  cases (s.voice v).irq <;> cases s.irqVector.getLsbD 7 <;> simp [State.emit]

theorem arbitrate_fold_busy (vs : List VoiceIx) (s : State) (h : s.irqVector.getLsbD 7 = false) :
    vs.foldl arbitrateVoice s = s := by
  induction vs with
  | nil => rfl
  | cons v vs ih =>
    rcases arbitrateVoice_cases s v with ⟨-, h7, -⟩ | ⟨-, e⟩
    · rw [h] at h7; cases h7
    · rw [List.foldl_cons, e, ih]

theorem setWidth8_bit7 : ∀ v : VoiceIx, (v.setWidth 8).getLsbD 7 = false := by decide

/-- All the arbiter can do: nothing, when the vector is not free or no active voice is pending; else it latches the
first pending voice of the active ones, and that is all (R324, R329). -/
theorem arbitrate_cases (s : State) :
    ((s.irqVector.getLsbD 7 = false ∨ ∀ v ∈ s.activeVoices, (s.voice v).irq = false) ∧ arbitrate s = s)
    ∨ ∃ before v after, s.activeVoices = before ++ v :: after ∧ (∀ u ∈ before, (s.voice u).irq = false)
      ∧ s.irqVector.getLsbD 7 = true ∧ (s.voice v).irq = true ∧ arbitrate s
      = { s.setVoice v (clearIrq (s.voice v)) with irqVector := v.setWidth 8, trace := s.trace ++ [.irqLine true] } := by
  unfold arbitrate
  generalize s.activeVoices = vs
  cases h7 : s.irqVector.getLsbD 7 with
  | false => exact .inl ⟨.inl rfl, arbitrate_fold_busy vs s h7⟩
  | true =>
    induction vs with
    | nil => exact .inl ⟨.inr (by simp), rfl⟩
    | cons v vs ih =>
      rcases arbitrateVoice_cases s v with ⟨hi, -, e⟩ | ⟨hi, e⟩
      · refine .inr ⟨[], v, vs, rfl, by simp, rfl, hi, ?_⟩
        rw [List.foldl_cons, e]
        exact arbitrate_fold_busy vs _ (setWidth8_bit7 v)
      · have hi : (s.voice v).irq = false := hi.resolve_right (by simp [h7])
        rw [List.foldl_cons, e]
        rcases ih with ⟨hn, e'⟩ | ⟨before, u, after, rfl, hb, h7', hu, e'⟩
        · refine .inl ⟨.inr ?_, e'⟩
          rintro w (_ | ⟨_, hw⟩)
          · exact hi
          · exact hn.resolve_left (by simp) w hw
        · refine .inr ⟨v :: before, u, after, rfl, ?_, h7', hu, e'⟩
          rintro w (_ | ⟨_, hw⟩)
          · exact hi
          · exact hb w hw

/-! ## GENERATE -/

/-- GENERATE(N) for N > 0: the mix, the arbiter, and the buffers given to the host. -/
theorem generate_pos (n : Nat) (s : State) (h : 0 < n) :
    generate n s
      = (arbitrate (mixVoices s (List.replicate n ⟨0, 0⟩) s.activeVoices).1).emit
        (.buffers ((mixVoices s (List.replicate n ⟨0, 0⟩) s.activeVoices).2.map Slot.left)
          ((mixVoices s (List.replicate n ⟨0, 0⟩) s.activeVoices).2.map Slot.right)) := by
  rw [generate, if_neg (by omega)]

/-- All GENERATE(N) can do for N > 0: the mix changes voices, the filter's draws and the buffers; then the arbiter
latches the lowest active voice that the mix left pending, if the vector is free, or does nothing. -/
theorem generate_cases (n : Nat) (s : State) (h : 0 < n) :
    let mixed := mixVoices s (List.replicate n ⟨0, 0⟩) s.activeVoices
    let output : Output := .buffers (mixed.2.map Slot.left) (mixed.2.map Slot.right)
    ((s.irqVector.getLsbD 7 = false ∨ ∀ v ∈ s.activeVoices, (mixed.1.voice v).irq = false)
      ∧ generate n s = { s with
        voices := mixed.1.voices, filterDraws := mixed.1.filterDraws, trace := s.trace ++ [output] })
    ∨ ∃ v ∈ s.activeVoices, s.irqVector.getLsbD 7 = true ∧ (mixed.1.voice v).irq = true
      ∧ (∀ u : VoiceIx, u.toNat < v.toNat → (mixed.1.voice u).irq = false)
      ∧ generate n s = { s with
        voices := (mixed.1.setVoice v (clearIrq (mixed.1.voice v))).voices
        irqVector := v.setWidth 8
        filterDraws := mixed.1.filterDraws
        trace := s.trace ++ [.irqLine true] ++ [output] } := by
  intro mixed output
  obtain ⟨voices, draws, hm⟩ := mixVoices_frame s.activeVoices s (List.replicate n ⟨0, 0⟩)
  have hm : mixed.1 = { s with voices := voices, filterDraws := draws } := hm
  have ha : mixed.1.activeVoices = s.activeVoices := by rw [hm]; rfl
  have hi : mixed.1.irqVector = s.irqVector := by rw [hm]
  have hg : generate n s = (arbitrate mixed.1).emit output := generate_pos n s h
  rcases arbitrate_cases mixed.1 with ⟨hn, e⟩ | ⟨before, v, after, hs, hb, h7, hv, e⟩
  · rw [ha, hi] at hn
    refine .inl ⟨hn, ?_⟩
    rw [hg, e, hm]
    rfl
  · rw [hi] at h7
    refine .inr ⟨v, by rw [← ha, hs]; simp, h7, hv, fun u hu => hb u ((mem_before_iff _ hs u).mpr hu), ?_⟩
    rw [hg, e, hm]
    rfl

end Sys2Proof.Machine
end

