-- ==== Sys2Proof/Laws/Memory.lean ====
section
/-! SUPPORT. Waveform memory stays in canonical form. The core has no operation that writes it (R11, R78): what builds
a region is `memOfWords`, which gives the canonical form, and CONSTRUCT, which takes canonical regions only. -/

namespace Sys2Proof.Machine

/-! ## Lists of cells -/

/-- The addresses of the cells of `n` words from word address `a` on lie in `2a .. 2(a + n) - 1`. -/
theorem cellsFrom_bounds (ws : List Hword) (a : Nat) :
    ∀ c ∈ cellsFrom a ws, 2 * a ≤ c.1 ∧ c.1 < 2 * (a + ws.length) ∧ c.2 ≠ 0 := by
  have one : ∀ (n : Nat) (b : Byte) (c : Host.Cell), c ∈ byteCell n b → c.1 = n ∧ c.2 ≠ 0 := by
    intro n b c h
    unfold byteCell at h
    split at h
    · cases h
    · next hb => rw [List.mem_singleton] at h; subst h; exact ⟨rfl, hb⟩
  induction ws generalizing a with
  | nil => intro c h; cases h
  | cons w ws ih =>
    intro c h
    simp only [cellsFrom, List.mem_append] at h
    rw [List.length_cons]
    rcases h with (h | h) | h
    · obtain ⟨h1, h2⟩ := one _ _ _ h; exact ⟨by omega, by omega, h2⟩
    · obtain ⟨h1, h2⟩ := one _ _ _ h; exact ⟨by omega, by omega, h2⟩
    · obtain ⟨h1, h2, h3⟩ := ih (a + 1) c h; exact ⟨by omega, by omega, h3⟩

theorem rising_iff (l : List Nat) : rising l = true ↔ l.Pairwise (· < ·) := by
  induction l with
  | nil => simp [rising]
  | cons a l ih =>
    cases l with
    | nil => simp [rising]
    | cons b l =>
      rw [rising, Bool.and_eq_true, ih, decide_eq_true_eq, List.pairwise_cons (a := a)]
      constructor
      · rintro ⟨h, hp⟩
        refine ⟨fun c hc => ?_, hp⟩
        rcases List.mem_cons.mp hc with rfl | hc
        · exact h
        · exact lt_trans h (List.rel_of_pairwise_cons hp hc)
      · rintro ⟨h, hp⟩
        exact ⟨h b (by simp), hp⟩

theorem cellsFrom_rising (ws : List Hword) (a : Nat) : ((cellsFrom a ws).map Prod.fst).Pairwise (· < ·) := by
  induction ws generalizing a with
  | nil => exact List.Pairwise.nil
  | cons w ws ih =>
    have hb := cellsFrom_bounds ws (a + 1)
    have tail : ∀ x ∈ (cellsFrom (a + 1) ws).map Prod.fst, 2 * a + 1 < x := by
      intro x hx
      obtain ⟨c, hc, rfl⟩ := List.mem_map.mp hx
      have := (hb c hc).1
      omega
    simp only [cellsFrom, byteCell]
    split <;> split <;> simp only [List.nil_append, List.cons_append, List.map_cons]
    · exact ih _
    · exact List.pairwise_cons.mpr ⟨tail, ih _⟩
    · exact List.pairwise_cons.mpr ⟨fun x hx => by have := tail x hx; omega, ih _⟩
    · refine List.pairwise_cons.mpr ⟨?_, List.pairwise_cons.mpr ⟨tail, ih _⟩⟩
      intro x hx
      rcases List.mem_cons.mp hx with rfl | hx
      · omega
      · have := tail x hx; omega

/-- A region built from words is in canonical form. -/
theorem memOfWords_wf (ws : List Hword) : (memOfWords ws).wf = true := by
  rw [Memory.wf, Bool.and_eq_true, rising_iff, List.all_eq_true]
  refine ⟨cellsFrom_rising ws 0, fun c hc => ?_⟩
  obtain ⟨-, h1, h2⟩ := cellsFrom_bounds ws 0 c hc
  simp only [Bool.and_eq_true, decide_eq_true_eq, bne_iff_ne]
  exact ⟨by simpa [memOfWords] using h1, h2⟩

/-! ## Reset -/

/-- The parameters that stand at reset are well formed: every region is absent. -/
theorem standard_wf : Params.standard.wf = true := by decide

theorem reset_params_wf : State.reset.params.wf = true := standard_wf

/-- Every region of well-formed parameters is in canonical form. -/
theorem regionOf_wf (p : Params) (h : p.wf = true) (r : BitVec 2) : regionWf (regionOf p r) = true := by
  simp only [Params.wf, Bool.and_eq_true] at h
  obtain ⟨⟨⟨⟨⟨h0, h1⟩, h2⟩, h3⟩, -⟩, -⟩ := h
  unfold regionOf
  repeat' split
  all_goals assumption

end Sys2Proof.Machine
end

