-- ==== Sys2Proof/Laws/Registers.lean ====
section
/-! SUPPORT. What a register write, a register read and a bus access can do, each said once. -/

namespace Sys2Proof.Machine

/-! ## Masks -/

theorem and_not_and_self {n : Nat} (d m : BitVec n) : (d &&& m) &&& ~~~m = 0 := by
  ext i hi
  simp

theorem kRampField_reserved (d : Word) : kRampField d &&& 0x7FFFFF00 = 0 := by
  apply BitVec.eq_of_getLsbD_eq
  intro i hi
  rw [BitVec.getLsbD_and, kRampField, BitVec.getLsbD_append, BitVec.getLsbD_append]
  interval_cases i <;> simp

/-! ## Register writes -/


@[simp] theorem writeReg_params (r : Reg) (d : Word) (s : State) : (writeReg r d s).params = s.params := by
  cases r <;> rfl

@[simp] theorem writeReg_irqVector (r : Reg) (d : Word) (s : State) : (writeReg r d s).irqVector = s.irqVector := by
  cases r <;> rfl

@[simp] theorem writeReg_writeLatch (r : Reg) (d : Word) (s : State) : (writeReg r d s).writeLatch = s.writeLatch := by
  cases r <;> rfl

@[simp] theorem writeReg_readLatch (r : Reg) (d : Word) (s : State) : (writeReg r d s).readLatch = s.readLatch := by
  cases r <;> rfl

@[simp] theorem writeReg_portReads (r : Reg) (d : Word) (s : State) : (writeReg r d s).portReads = s.portReads := by
  cases r <;> rfl

@[simp] theorem writeReg_filterDraws (r : Reg) (d : Word) (s : State) : (writeReg r d s).filterDraws = s.filterDraws := by
  cases r <;> rfl

@[simp] theorem writeReg_chips (r : Reg) (d : Word) (s : State) : (writeReg r d s).chips = s.chips := by
  cases r <;> rfl

@[simp] theorem writeReg_hostOps (r : Reg) (d : Word) (s : State) : (writeReg r d s).hostOps = s.hostOps := by
  cases r <;> rfl

/-- A register write reaches the selected voice only. -/
theorem writeReg_voice_ne (r : Reg) (d : Word) (s : State) {w : VoiceIx} (h : w ≠ s.sel) :
    (writeReg r d s).voice w = s.voice w := by
  cases r <;> first | rfl | exact State.voice_setVoice_ne s _ h

/-- Only the write of CR changes a control register. -/
theorem writeReg_control (r : Reg) (d : Word) (s : State) (w : VoiceIx) (h : r ≠ .cr) :
    ((writeReg r d s).voice w).control = (s.voice w).control := by
  by_cases hw : w = s.sel
  · subst hw
    cases r <;> first | exact absurd rfl h | rfl | (change ((s.setVoice s.sel _).voice s.sel).control = _; rw [State.voice_setVoice_same]; rfl)
  · rw [writeReg_voice_ne r d s hw]

/-- The write of CR. -/
theorem writeReg_cr (d : Word) (s : State) :
    writeReg .cr d s = s.setVoice s.sel { s.voice s.sel with control := crField d } := rfl

/-- A register write announces at most a sample rate. -/
theorem writeReg_trace (r : Reg) (d : Word) (s : State) :
    (writeReg r d s).trace = s.trace
      ∨ (writeReg r d s).trace =
        s.trace ++ [.sampleRate (sampleRate s.params.masterClockHz (fiveField d))] := by
  cases r <;> first | exact .inl rfl | exact .inr rfl

theorem writeReg_trace_prefix (r : Reg) (d : Word) (s : State) : s.trace <+: (writeReg r d s).trace := by
  rcases writeReg_trace r d s with h | h <;> rw [h]
  exact List.prefix_append _ _

/-- Only the write of PAGE changes the page. -/
theorem writeReg_currentPage (r : Reg) (d : Word) (s : State) (h : r ≠ .page) :
    (writeReg r d s).currentPage = s.currentPage := by
  cases r <;> first | exact absurd rfl h | rfl

/-- Only the write of ACTV changes the number of active voices. -/
theorem writeReg_activeVoiceCount (r : Reg) (d : Word) (s : State) (h : r ≠ .actv) :
    (writeReg r d s).activeVoiceCount = s.activeVoiceCount := by
  cases r <;> first | exact absurd rfl h | rfl

/-- A register write keeps every voice safe. -/
theorem writeReg_voiceSafe (r : Reg) (d : Word) (s : State) (w : VoiceIx) (h : VoiceSafe s.params (s.voice w)) :
    VoiceSafe s.params ((writeReg r d s).voice w) := by
  by_cases hw : w = s.sel
  · subst hw
    obtain ⟨h1, h2, h3, h4, h5⟩ := h
    cases r <;> first
      | exact ⟨h1, h2, h3, h4, h5⟩
      | (change VoiceSafe s.params ((s.setVoice s.sel _).voice s.sel)
         rw [State.voice_setVoice_same]
         first
          | exact ⟨h1, h2, h3, h4, h5⟩
          | exact ⟨and_not_and_self _ _, h2, h3, h4, h5⟩
          | exact ⟨h1, and_not_and_self _ _, h3, h4, h5⟩
          | exact ⟨h1, h2, and_not_and_self _ _, h4, h5⟩
          | exact ⟨h1, h2, h3, kRampField_reserved _, h5⟩
          | exact ⟨h1, h2, h3, h4, kRampField_reserved _⟩)
  · rw [writeReg_voice_ne r d s hw]; exact h

/-- A register write neither reads nor writes the write latch. -/
theorem writeReg_withLatch (r : Reg) (d l : Word) (s : State) :
    writeReg r d { s with writeLatch := l } = { writeReg r d s with writeLatch := l } := by
  cases r <;> rfl

/-! ## Register reads -/

@[simp] theorem readReg_params (r : Reg) (s : State) : (readReg r s).2.params = s.params := by
  cases r <;> first | rfl | (simp only [readReg, readPar]; split <;> rfl)

@[simp] theorem readReg_activeVoiceCount (r : Reg) (s : State) : (readReg r s).2.activeVoiceCount = s.activeVoiceCount := by
  cases r <;> first | rfl | (simp only [readReg, readPar]; split <;> rfl)

@[simp] theorem readReg_currentPage (r : Reg) (s : State) : (readReg r s).2.currentPage = s.currentPage := by
  cases r <;> first | rfl | (simp only [readReg, readPar]; split <;> rfl)

@[simp] theorem readReg_mode (r : Reg) (s : State) : (readReg r s).2.mode = s.mode := by
  cases r <;> first | rfl | (simp only [readReg, readPar]; split <;> rfl)

@[simp] theorem readReg_wst (r : Reg) (s : State) : (readReg r s).2.wst = s.wst := by
  cases r <;> first | rfl | (simp only [readReg, readPar]; split <;> rfl)

@[simp] theorem readReg_wend (r : Reg) (s : State) : (readReg r s).2.wend = s.wend := by
  cases r <;> first | rfl | (simp only [readReg, readPar]; split <;> rfl)

@[simp] theorem readReg_lrend (r : Reg) (s : State) : (readReg r s).2.lrend = s.lrend := by
  cases r <;> first | rfl | (simp only [readReg, readPar]; split <;> rfl)

@[simp] theorem readReg_writeLatch (r : Reg) (s : State) : (readReg r s).2.writeLatch = s.writeLatch := by
  cases r <;> first | rfl | (simp only [readReg, readPar]; split <;> rfl)

@[simp] theorem readReg_readLatch (r : Reg) (s : State) : (readReg r s).2.readLatch = s.readLatch := by
  cases r <;> first | rfl | (simp only [readReg, readPar]; split <;> rfl)

@[simp] theorem readReg_voices (r : Reg) (s : State) : (readReg r s).2.voices = s.voices := by
  cases r <;> first | rfl | (simp only [readReg, readPar]; split <;> rfl)

@[simp] theorem readReg_filterDraws (r : Reg) (s : State) : (readReg r s).2.filterDraws = s.filterDraws := by
  cases r <;> first | rfl | (simp only [readReg, readPar]; split <;> rfl)

@[simp] theorem readReg_chips (r : Reg) (s : State) : (readReg r s).2.chips = s.chips := by
  cases r <;> first | rfl | (simp only [readReg, readPar]; split <;> rfl)

@[simp] theorem readReg_hostOps (r : Reg) (s : State) : (readReg r s).2.hostOps = s.hostOps := by
  cases r <;> first | rfl | (simp only [readReg, readPar]; split <;> rfl)

@[simp] theorem readReg_voice (r : Reg) (s : State) (w : VoiceIx) : (readReg r s).2.voice w = s.voice w :=
  State.voice_congr (readReg_voices r s) w

/-- Only the reads of IRQV and PAR have a side effect. -/
theorem readReg_pure (r : Reg) (s : State) (hi : r ≠ .irqv) (hp : r ≠ .par) : readReg r s = (peekReg r s, s) := by
  cases r <;> first | exact absurd rfl hi | exact absurd rfl hp | rfl

/-- The read of IRQV frees the vector; no other read changes it. -/
theorem readReg_irqVector (r : Reg) (s : State) :
    (readReg r s).2.irqVector = if r = .irqv then 0x80 else s.irqVector := by
  cases r <;> first | rfl | (simp only [readReg, readPar]; split <;> rfl)

/-- The read of IRQV announces that the line is deasserted; no other read announces anything. -/
theorem readReg_trace (r : Reg) (s : State) :
    (readReg r s).2.trace = if r = .irqv then s.trace ++ [.irqLine false] else s.trace := by
  cases r <;> first | rfl | (simp only [readReg, readPar]; split <;> rfl)

/-- Only the read of PAR calls the port, and only when there is one. -/
theorem readReg_portReads (r : Reg) (s : State) :
    (readReg r s).2.portReads = if r = .par ∧ s.params.portRead = true then s.portReads + 1 else s.portReads := by
  cases r <;> first | rfl | (simp only [readReg, readPar, true_and]; split <;> rfl)

/-! ## Bus accesses -/

/-- An 8-bit write only latches on lanes 0 to 2, and on lane 3 commits the latch and clears it. -/
theorem bus8Write_cases (a : Nat) (b : Byte) (s : State) :
    (busLane a ≠ 3 ∧ bus8Write a b s = { s with writeLatch := latchByte s.writeLatch (busLane a) b })
      ∨ (busLane a = 3 ∧ ∃ d, bus8Write a b s
        = { writeReg (s.regNow (busReg a)) d { s with writeLatch := d } with writeLatch := 0 }) := by
  by_cases h : busLane a = 3
  · exact .inr ⟨h, latchByte s.writeLatch (busLane a) b, by simp only [bus8Write, if_pos h]; rfl⟩
  · exact .inl ⟨h, by simp only [bus8Write, if_neg h]⟩

/-- An 8-bit read reads the register on lane 0 and changes nothing on the others. -/
theorem bus8Read_cases (a : Nat) (s : State) :
    (busLane a = 0 ∧ (bus8Read a s).2
        = { (readReg (s.regNow (busReg a)) s).2 with readLatch := (readReg (s.regNow (busReg a)) s).1 })
      ∨ (busLane a ≠ 0 ∧ (bus8Read a s).2 = s) := by
  by_cases h : busLane a = 0
  · exact .inl ⟨h, by simp only [bus8Read, if_pos h]; rfl⟩
  · exact .inr ⟨h, by simp only [bus8Read, if_neg h]⟩

/-- A 16-bit write is ignored at an unmapped offset and is a register write at a mapped one. -/
theorem bus16Write_cases (off : Nat) (data : Hword) (lanes : BitVec 2) (s : State) :
    (busLine s.params off = none ∧ bus16Write off data lanes s = s)
      ∨ ∃ l, busLine s.params off = some l
        ∧ bus16Write off data lanes s
          = writeReg (s.regNow l.reg) (mergeLanes (regPeek l.reg s) l.half data lanes) s := by
  cases h : busLine s.params off with
  | none => exact .inl ⟨rfl, by simp only [bus16Write, h]⟩
  | some l => exact .inr ⟨l, rfl, by simp only [bus16Write, h]; rfl⟩

/-- A 16-bit read changes nothing at an unmapped offset and is a register read at a mapped one. -/
theorem bus16Read_cases (off : Nat) (s : State) :
    (busLine s.params off = none ∧ bus16Read off s = (0, s))
      ∨ ∃ l, busLine s.params off = some l ∧ (bus16Read off s).2 = (readReg (s.regNow l.reg) s).2 := by
  cases h : busLine s.params off with
  | none => exact .inl ⟨rfl, by simp only [bus16Read, h]⟩
  | some l => exact .inr ⟨l, rfl, by simp only [bus16Read, h]; rfl⟩

end Sys2Proof.Machine
end

