-- ==== Sys2Proof/Tests/Slice0.lean ====
section
/-! SUPPORT. The model's own tests: WellFormed refuses ill-formed parameters; each key of the opcode table, written out
from spec/30_encoding.md, decodes to its operation; vectors of spec/95_test_vectors.md; and, for each statement with
hypotheses, a state and operands that meet them. -/

namespace Sys2Proof.Tests

open Sys2Proof.Machine

/-! ## WellFormed -/

theorem test_wf_standard : (Instr.construct Params.standard).wf = true := by decide

theorem test_wf_refuses_falling_cells : (⟨4, [(2, 1), (1, 1)]⟩ : Memory).wf = false := by decide

theorem test_wf_refuses_repeated_cell : (⟨4, [(2, 1), (2, 1)]⟩ : Memory).wf = false := by decide

theorem test_wf_refuses_cell_beyond_extent : (⟨4, [(8, 1)]⟩ : Memory).wf = false := by decide

theorem test_wf_refuses_zero_cell : (⟨4, [(2, 0)]⟩ : Memory).wf = false := by decide

/-- The first ill-formed region is refused in each of its four places. -/
theorem test_wf_refuses_region :
    (Instr.construct { Params.standard with region0 := some ⟨4, [(8, 1)]⟩ }).wf = false
      ∧ (Instr.construct { Params.standard with region1 := some ⟨4, [(8, 1)]⟩ }).wf = false
      ∧ (Instr.construct { Params.standard with region2 := some ⟨4, [(8, 1)]⟩ }).wf = false
      ∧ (Instr.construct { Params.standard with region3 := some ⟨4, [(8, 1)]⟩ }).wf = false := by decide

theorem test_wf_refuses_short_volume_table :
    (Instr.construct { Params.standard with volumeLookup := .custom [1, 2, 3] }).wf = false := by decide

/-- `BUS16_MAP` is a partial function: two lines of one offset are refused. -/
theorem test_wf_refuses_repeated_offset :
    (Instr.construct { Params.standard with bus16Map := [⟨3, 1, .hi⟩, ⟨3, 2, .lo⟩] }).wf = false := by decide

/-! ## Decoding: frames written out from the keys of R91, R93 to R95 and R106. A register frame's first byte is the
write bit and the register number, the page group stands beside it, and the data word 0x12345678 follows most
significant byte first. -/

/-- KEY 0x40 to 0x4F: W = 1, G = 00 (R93). -/
theorem test_decode_low_writes :
    decode 0b00 [0b01000000, 0x12, 0x34, 0x56, 0x78] = .ok (.wrLCr 0x12345678)
      ∧ decode 0b00 [0b01000001, 0x12, 0x34, 0x56, 0x78] = .ok (.wrLFc 0x12345678)
      ∧ decode 0b00 [0b01000010, 0x12, 0x34, 0x56, 0x78] = .ok (.wrLLvol 0x12345678)
      ∧ decode 0b00 [0b01000011, 0x12, 0x34, 0x56, 0x78] = .ok (.wrLLvramp 0x12345678)
      ∧ decode 0b00 [0b01000100, 0x12, 0x34, 0x56, 0x78] = .ok (.wrLRvol 0x12345678)
      ∧ decode 0b00 [0b01000101, 0x12, 0x34, 0x56, 0x78] = .ok (.wrLRvramp 0x12345678)
      ∧ decode 0b00 [0b01000110, 0x12, 0x34, 0x56, 0x78] = .ok (.wrLEcount 0x12345678)
      ∧ decode 0b00 [0b01000111, 0x12, 0x34, 0x56, 0x78] = .ok (.wrLK2 0x12345678)
      ∧ decode 0b00 [0b01001000, 0x12, 0x34, 0x56, 0x78] = .ok (.wrLK2ramp 0x12345678)
      ∧ decode 0b00 [0b01001001, 0x12, 0x34, 0x56, 0x78] = .ok (.wrLK1 0x12345678)
      ∧ decode 0b00 [0b01001010, 0x12, 0x34, 0x56, 0x78] = .ok (.wrLK1ramp 0x12345678)
      ∧ decode 0b00 [0b01001011, 0x12, 0x34, 0x56, 0x78] = .ok (.wrLActv 0x12345678)
      ∧ decode 0b00 [0b01001100, 0x12, 0x34, 0x56, 0x78] = .ok (.wrLMode 0x12345678)
      ∧ decode 0b00 [0b01001101, 0x12, 0x34, 0x56, 0x78] = .ok (.wrLPar 0x12345678)
      ∧ decode 0b00 [0b01001110, 0x12, 0x34, 0x56, 0x78] = .ok (.wrLIrqv 0x12345678)
      ∧ decode 0b00 [0b01001111, 0x12, 0x34, 0x56, 0x78] = .ok (.wrLPage 0x12345678) := by
  decide +kernel

/-- KEY 0x50 to 0x5F: W = 1, G = 01 (R94). -/
theorem test_decode_high_writes :
    decode 0b01 [0b01000000, 0x12, 0x34, 0x56, 0x78] = .ok (.wrHCr 0x12345678)
      ∧ decode 0b01 [0b01000001, 0x12, 0x34, 0x56, 0x78] = .ok (.wrHStart 0x12345678)
      ∧ decode 0b01 [0b01000010, 0x12, 0x34, 0x56, 0x78] = .ok (.wrHEnd 0x12345678)
      ∧ decode 0b01 [0b01000011, 0x12, 0x34, 0x56, 0x78] = .ok (.wrHAccum 0x12345678)
      ∧ decode 0b01 [0b01000100, 0x12, 0x34, 0x56, 0x78] = .ok (.wrHO4n1 0x12345678)
      ∧ decode 0b01 [0b01000101, 0x12, 0x34, 0x56, 0x78] = .ok (.wrHO3n1 0x12345678)
      ∧ decode 0b01 [0b01000110, 0x12, 0x34, 0x56, 0x78] = .ok (.wrHO3n2 0x12345678)
      ∧ decode 0b01 [0b01000111, 0x12, 0x34, 0x56, 0x78] = .ok (.wrHO2n1 0x12345678)
      ∧ decode 0b01 [0b01001000, 0x12, 0x34, 0x56, 0x78] = .ok (.wrHO2n2 0x12345678)
      ∧ decode 0b01 [0b01001001, 0x12, 0x34, 0x56, 0x78] = .ok (.wrHO1n1 0x12345678)
      ∧ decode 0b01 [0b01001010, 0x12, 0x34, 0x56, 0x78] = .ok (.wrHWSt 0x12345678)
      ∧ decode 0b01 [0b01001011, 0x12, 0x34, 0x56, 0x78] = .ok (.wrHWEnd 0x12345678)
      ∧ decode 0b01 [0b01001100, 0x12, 0x34, 0x56, 0x78] = .ok (.wrHLrEnd 0x12345678)
      ∧ decode 0b01 [0b01001101, 0x12, 0x34, 0x56, 0x78] = .ok (.wrHPar 0x12345678)
      ∧ decode 0b01 [0b01001110, 0x12, 0x34, 0x56, 0x78] = .ok (.wrHIrqv 0x12345678)
      ∧ decode 0b01 [0b01001111, 0x12, 0x34, 0x56, 0x78] = .ok (.wrHPage 0x12345678) := by
  decide +kernel

/-- KEY 0x00 to 0x0F: W = 0, G = 00 (R93). -/
theorem test_decode_low_reads :
    decode 0b00 [0b00000000] = .ok .rdLCr
      ∧ decode 0b00 [0b00000001] = .ok .rdLFc
      ∧ decode 0b00 [0b00000010] = .ok .rdLLvol
      ∧ decode 0b00 [0b00000011] = .ok .rdLLvramp
      ∧ decode 0b00 [0b00000100] = .ok .rdLRvol
      ∧ decode 0b00 [0b00000101] = .ok .rdLRvramp
      ∧ decode 0b00 [0b00000110] = .ok .rdLEcount
      ∧ decode 0b00 [0b00000111] = .ok .rdLK2
      ∧ decode 0b00 [0b00001000] = .ok .rdLK2ramp
      ∧ decode 0b00 [0b00001001] = .ok .rdLK1
      ∧ decode 0b00 [0b00001010] = .ok .rdLK1ramp
      ∧ decode 0b00 [0b00001011] = .ok .rdLActv
      ∧ decode 0b00 [0b00001100] = .ok .rdLMode
      ∧ decode 0b00 [0b00001101] = .ok .rdLPar
      ∧ decode 0b00 [0b00001110] = .ok .rdLIrqv
      ∧ decode 0b00 [0b00001111] = .ok .rdLPage := by
  decide +kernel

/-- KEY 0x10 to 0x1F: W = 0, G = 01 (R94). -/
theorem test_decode_high_reads :
    decode 0b01 [0b00000000] = .ok .rdHCr
      ∧ decode 0b01 [0b00000001] = .ok .rdHStart
      ∧ decode 0b01 [0b00000010] = .ok .rdHEnd
      ∧ decode 0b01 [0b00000011] = .ok .rdHAccum
      ∧ decode 0b01 [0b00000100] = .ok .rdHO4n1
      ∧ decode 0b01 [0b00000101] = .ok .rdHO3n1
      ∧ decode 0b01 [0b00000110] = .ok .rdHO3n2
      ∧ decode 0b01 [0b00000111] = .ok .rdHO2n1
      ∧ decode 0b01 [0b00001000] = .ok .rdHO2n2
      ∧ decode 0b01 [0b00001001] = .ok .rdHO1n1
      ∧ decode 0b01 [0b00001010] = .ok .rdHWSt
      ∧ decode 0b01 [0b00001011] = .ok .rdHWEnd
      ∧ decode 0b01 [0b00001100] = .ok .rdHLrEnd
      ∧ decode 0b01 [0b00001101] = .ok .rdHPar
      ∧ decode 0b01 [0b00001110] = .ok .rdHIrqv
      ∧ decode 0b01 [0b00001111] = .ok .rdHPage := by
  decide +kernel

/-- Each row of the test group at G = 11 and its last register number (R95, R113). -/
theorem test_decode_test_group :
    decode 0b11 [0b01000111, 0x12, 0x34, 0x56, 0x78] = .ok (.wrTRsv0 1 7 0x12345678)
      ∧ decode 0b11 [0b01001011, 0x12, 0x34, 0x56, 0x78] = .ok (.wrTRsv8 1 3 0x12345678)
      ∧ decode 0b11 [0b01001101, 0x12, 0x34, 0x56, 0x78] = .ok (.wrTRsvC 1 1 0x12345678)
      ∧ decode 0b11 [0b01001110, 0x12, 0x34, 0x56, 0x78] = .ok (.wrTIrqv 1 0x12345678)
      ∧ decode 0b11 [0b01001111, 0x12, 0x34, 0x56, 0x78] = .ok (.wrTPage 1 0x12345678)
      ∧ decode 0b11 [0b00000111] = .ok (.rdTRsv0 1 7)
      ∧ decode 0b11 [0b00001011] = .ok (.rdTRsv8 1 3)
      ∧ decode 0b11 [0b00001101] = .ok (.rdTRsvC 1 1)
      ∧ decode 0b11 [0b00001110] = .ok (.rdTIrqv 1)
      ∧ decode 0b11 [0b00001111] = .ok (.rdTPage 1) := by
  decide +kernel

/-- The CALL codes of R106, bits 2:0 of a first byte with bit 7 set; naturals in groups of 7 bits. -/
theorem test_decode_calls :
    decode 0b00 [0b10000000, 0x05] = .ok (.generate 5)
      ∧ decode 0b00 [0b10000001, 0x1F, 0x00, 0x10, 0x00, 0x00] = .ok (.bankW 31 0x100000)
      ∧ decode 0b01 [0b10000010, 0x3F, 0x20] = .ok (.bus8Wb 0x3F 0x20)
      ∧ decode 0b10 [0b10000011, 0x80, 0x01] = .ok (.bus8Rb 128)
      ∧ decode 0b11 [0b10000100, 0x03, 0xAB, 0x12, 0b10] = .ok (.bus16W 3 0xAB12 0b10)
      ∧ decode 0b00 [0b10000101, 0x04] = .ok (.bus16R 4)
      ∧ decode 0b00 [0b10000111] = .ok .callRsv := by
  decide +kernel

/-- CONSTRUCT's parameters in the order of R5: an ES5505 at 16 MHz with region 1 = [0x2000] and one map line. -/
theorem test_decode_construct :
    decode 0b00 [0b10000110, 1, 0x00, 0xF4, 0x24, 0x00, 0, 1, 1, 1, 0, 0x20, 0, 0, 0, 0, 0x10, 0x00,
      0x00, 0x01, 0xFF, 0xFF, 0xFF, 0xFF, 0xF8, 0x00, 0xFF, 0xFF, 0xFF, 0x80, 1, 5, 0b00010010, 0]
      = .ok (.construct { Params.standard with
          variant := .es5505
          region1 := some (memOfWords [0x2000])
          bus16Map := [⟨5, 2, .hi⟩] }) := by
  decide +kernel

/-- Frames that are none: empty, a reserved bit set, operands missing or out of form, a byte left over. -/
theorem test_decode_refuses :
    decode 0b00 [] = .error .emptyFrame
      ∧ decode 0b00 [0b01010000, 0, 0, 0, 0] = .error .reservedBits
      ∧ decode 0b00 [0b10001000, 0] = .error .reservedBits
      ∧ decode 0b00 [0b01000000, 0, 0, 0] = .error .badOperands
      ∧ decode 0b00 [0b10000000, 0x80, 0x00] = .error .badOperands
      ∧ decode 0b00 [0b10000100, 3, 0, 0, 0b100] = .error .badOperands
      ∧ decode 0b00 [0b00000000, 0] = .error .trailingBytes := by
  decide +kernel

/-- Numbers of the table, and the frames step runs them from: WR.H.ACCUM and CALL.RSV. -/
theorem test_fetch_word :
    decodeTableWord 8 0x53 = some (.wrHAccum 0) ∧ decodeTableWord 3 0b111 = some .callRsv
      ∧ (State.reset.withFetchWord 8 0x53).groupBits = 0b01
      ∧ (State.reset.withFetchWord 8 0x53).hostOps = [[0b01000011, 0, 0, 0, 0]] := by
  decide

/-! ## Small states -/

/-- The state an outcome gives, or the reset state. -/
def after (o : Host.Outcome State Fault Refusal) : State :=
  match o with
  | .next t => t
  | _ => State.reset

/-- Whether an outcome is a next state. -/
def goes (o : Host.Outcome State Fault Refusal) : Bool :=
  match o with
  | .next _ => true
  | _ => false

/-- The name of a refusal. -/
def why (o : Host.Outcome State Fault Refusal) : Option Refusal :=
  match o with
  | .refused r => some r
  | _ => none

/-- A silent voice of section L: control, S, E, a and F. -/
def loopVoice (control : Hword) (start endAddr accum freq : Word) : Voice :=
  { Voice.fresh with control := control, start := start, endAddr := endAddr, accum := accum, freqCount := freq }

/-- The reset state with voice 0 given and alone active. -/
def one (v : Voice) : State := { State.reset.setVoice 0 v with activeVoiceCount := 0 }

/-- Voice 0 after one pass of one sample, from a silent voice of section L. -/
def pass (control : Hword) (start endAddr accum freq : Word) : Voice :=
  (after (exec (.generate 1) (one (loopVoice control start endAddr accum freq)))).voice 0

/-- The reset state at a page, by the write of PAGE. -/
def page (p : Word) : State := after (exec (.wrLPage p) State.reset)

/-- The last output of an operation at a state. -/
def output (i : Instr) (s : State) : Option Output := (after (exec i s)).trace.getLast?

/-- A write at a page, then a read: what the read gives (RB1). -/
def readBack (p : Word) (w r : Instr) : Option Output := output r (after (exec w (page p)))

/-! ## Registers (RB1) -/

theorem test_cr : readBack 0 (.wrLCr 0xFFFF) .rdLCr = some (.readValue 0xFFFB)
    ∧ readBack 0x20 (.wrHCr 0x34) .rdHCr = some (.readValue 0x30) := by decide

theorem test_fc : readBack 0 (.wrLFc 0xFFFFFFFF) .rdLFc = some (.readValue 0x1FFFF) := by decide

theorem test_lvol : readBack 0 (.wrLLvol 0x12345678) .rdLLvol = some (.readValue 0x5678) := by decide

theorem test_rvol : readBack 0 (.wrLRvol 0x12345678) .rdLRvol = some (.readValue 0x5678) := by decide

theorem test_lvramp : readBack 0 (.wrLLvramp 0xABCD) .rdLLvramp = some (.readValue 0xAB00) := by decide

theorem test_rvramp : readBack 0 (.wrLRvramp 0xABCD) .rdLRvramp = some (.readValue 0xAB00) := by decide

theorem test_ecount : readBack 0 (.wrLEcount 0xFFFF) .rdLEcount = some (.readValue 0x1FF) := by decide

theorem test_k1 : readBack 0 (.wrLK1 0x12345678) .rdLK1 = some (.readValue 0x5678) := by decide

theorem test_k2 : readBack 0 (.wrLK2 0x12345678) .rdLK2 = some (.readValue 0x5678) := by decide

theorem test_k1ramp : readBack 0 (.wrLK1ramp 0x1234) .rdLK1ramp = some (.readValue 0x1200)
    ∧ ((after (exec (.wrLK1ramp 0x1234) State.reset)).voice 0).k1ramp = 0x12 := by decide

theorem test_k2ramp : readBack 0 (.wrLK2ramp 0x0401) .rdLK2ramp = some (.readValue 0x0401)
    ∧ ((after (exec (.wrLK2ramp 0x0401) State.reset)).voice 0).k2ramp = 0x80000004 := by decide

/-- The count is stored and the rate announced (M5). -/
theorem test_actv : readBack 0 (.wrLActv 0xFF) .rdLActv = some (.readValue 31)
    ∧ output (.wrLActv 7) State.reset = some (.sampleRate 125000) := by decide

theorem test_mode : readBack 0 (.wrLMode 0xFF) .rdLMode = some (.readValue 0x1F) := by decide

theorem test_start : readBack 0x20 (.wrHStart 0x12345FFF) .rdHStart = some (.readValue 0x12345800)
    ∧ readBack 0x20 (.wrHStart 0x17FF) .rdHStart = some (.readValue 0x1000) := by decide

theorem test_end : readBack 0x20 (.wrHEnd 0x12345FFF) .rdHEnd = some (.readValue 0x12345F80)
    ∧ readBack 0x20 (.wrHEnd 0x17FF) .rdHEnd = some (.readValue 0x1780) := by decide

theorem test_accum : readBack 0x20 (.wrHAccum 0xFEDCBA98) .rdHAccum = some (.readValue 0xFEDCBA98) := by decide

theorem test_o4n1 : readBack 0x20 (.wrHO4n1 0x20000) .rdHO4n1 = some (.readValue 0x20000)
    ∧ ((after (exec (.wrHO4n1 0x20000) State.reset)).voice 0).o4n1.toInt = -131072 := by decide

theorem test_o3n1 : readBack 0x20 (.wrHO3n1 0xFFFC0005) .rdHO3n1 = some (.readValue 5) := by decide

theorem test_o3n2 : readBack 0x20 (.wrHO3n2 0x3FFFF) .rdHO3n2 = some (.readValue 0x3FFFF) := by decide

theorem test_o2n1 : readBack 0x20 (.wrHO2n1 0xFFFC0005) .rdHO2n1 = some (.readValue 5) := by decide

theorem test_o2n2 : readBack 0x20 (.wrHO2n2 0x3FFFF) .rdHO2n2 = some (.readValue 0x3FFFF) := by decide

theorem test_o1n1 : readBack 0x20 (.wrHO1n1 0xFFFC0005) .rdHO1n1 = some (.readValue 5) := by decide

/-- R267 to R269, R296 to R298: seven bits, each register its own. -/
theorem test_window_registers : readBack 0x20 (.wrHWSt 0xFF) .rdHWSt = some (.readValue 0x7F)
    ∧ readBack 0x20 (.wrHWEnd 0x85) .rdHWEnd = some (.readValue 5)
    ∧ readBack 0x20 (.wrHLrEnd 0x7E) .rdHLrEnd = some (.readValue 0x7E)
    ∧ readBack 0x20 (.wrHWSt 0xFF) .rdHWEnd = some (.readValue 0) := by decide

/-- R257, R286: PAGE is honoured in every group. -/
theorem test_page : readBack 0 (.wrLPage 0xA3) .rdHPage = some (.readValue 0x23)
    ∧ readBack 0x20 (.wrHPage 0x45) (.rdTPage 0) = some (.readValue 0x45)
    ∧ readBack 0x40 (.wrTPage 0 0x21) .rdLPage = some (.readValue 0x21) := by decide

/-- R270, R299: the test group ignores and reads 0. -/
theorem test_reserved : readBack 0x40 (.wrTRsv0 0 0 5) (.rdTRsv0 0 0) = some (.readValue 0)
    ∧ readBack 0x40 (.wrTRsv8 0 3 5) (.rdTRsv8 0 3) = some (.readValue 0)
    ∧ readBack 0x60 (.wrTRsvC 1 1 5) (.rdTRsvC 1 1) = some (.readValue 0)
    ∧ (after (exec (.wrTRsv0 0 0 5) (page 0x40))).selVoice.control = 3
    ∧ after (exec (.wrTIrqv 0 0) State.reset) = State.reset := by decide

/-- R255, R284 without the callback. -/
theorem test_par : readBack 0 (.wrLPar 9) .rdLPar = some (.readValue 0)
    ∧ readBack 0x20 (.wrHPar 9) .rdHPar = some (.readValue 0) := by decide

/-- R284 with the callback: the call is counted. -/
theorem test_par_calls : (after (exec .rdLPar
    { State.reset with params := { Params.standard with portRead := true } })).portReads = 1 := by decide

/-- Q3, Q4: the vector is returned, freed, and the line announced, in every group; a write does not acknowledge. -/
theorem test_irqv :
    (after (exec .rdLIrqv { State.reset with irqVector := 3 })).trace = [.irqLine false, .readValue 3]
      ∧ (after (exec .rdHIrqv { State.reset with irqVector := 3 })).irqVector = 0x80
      ∧ (after (exec (.rdTIrqv 1) State.reset)).trace = [.irqLine false, .readValue 0x80]
      ∧ (after (exec (.wrLIrqv 0) { State.reset with irqVector := 3 })).irqVector = 3
      ∧ (after (exec (.wrHIrqv 0) { State.reset with irqVector := 3 })).irqVector = 3 := by decide

/-! ## Buses (RB2 to RB4) -/

/-- `3C:00 3D:00 3E:00 3F:20`, the last of the four bytes. -/
theorem test_bus8_commit : (after (exec (.bus8Wb 0x3F 0x20) State.reset)).currentPage = 0x20
    ∧ (after (exec (.bus8Wb 0x66 0x22) { State.reset with writeLatch := 0x11000000 })).writeLatch = 0x11002200 := by
  decide

/-- `RB 38 39` with `irqVector = 3`, and a first `RB 39`. -/
theorem test_bus8_read :
    (after (exec (.bus8Rb 0x38) { State.reset with irqVector := 3 })).readLatch = 3
      ∧ output (.bus8Rb 0x3B) { State.reset with readLatch := 0x01020304 } = some (.readByte 4)
      ∧ output (.bus8Rb 0x39) State.reset = some (.readByte 0) := by decide

/-- An ES5505 whose map has LVOL's low half at offset 6 and IRQV's at offset 7. -/
def wide : State :=
  { State.reset with
    params := { Params.standard with
      variant := .es5505
      bus16Map := [⟨6, 2, .lo⟩, ⟨7, 14, .lo⟩] } }

/-- RB3: data 0xAB12 with lane mask 10 on LVOL = 0x3456 gives 0xAB56. -/
theorem test_bus16_write :
    ((after (exec (.bus16W 6 0xAB12 0b10) (wide.setVoice 0 { Voice.fresh with lvol := 0x3456 }))).voice 0).lvol = 0xAB56
      ∧ after (exec (.bus16W 9 0xAB12 0b11) wide) = wide := by decide

theorem test_bus16_read :
    output (.bus16R 6) wide = some (.readHword 0xFFFF)
      ∧ (after (exec (.bus16R 7) { wide with irqVector := 5 })).trace = [.irqLine false, .readHword 5]
      ∧ output (.bus16R 9) wide = some (.readHword 0) := by decide

/-- RB4. -/
theorem test_bank :
    ((after (exec (.bankW 5 0x100000) State.reset)).voice 5).exBank = 0x100000
      ∧ why (exec (.bankW 32 0) State.reset) = some .voiceOutOfRange := by decide

/-- R102, R109. -/
theorem test_refusals :
    why (exec .callRsv State.reset) = some .reservedCall
      ∧ why (exec (.bus8Wb 0 0) wide) = some .wrongBusWidth ∧ why (exec (.bus8Rb 0) wide) = some .wrongBusWidth
      ∧ why (exec (.bus16W 6 0 3) State.reset) = some .wrongBusWidth
      ∧ why (exec (.bus16R 6) State.reset) = some .wrongBusWidth := by decide

/-- R350: construction on a used chip. -/
theorem test_construct :
    (after (exec (.construct Params.standard) { wide with irqVector := 3, currentPage := 0x21 })).irqVector = 0x80
      ∧ (after (exec (.construct Params.standard) wide)).params.variant = .es5506
      ∧ ((after (exec (.construct Params.standard) (page 5))).voice 31).control = 3 := by decide

/-! ## u-law, interpolation, volume (U1, U2, I1, I2, I4, M1) -/

theorem test_ulaw_row_8 : (List.range 16).map (fun c => ulaw 0x1000 (BitVec.ofNat 8 (0x80 + c)))
    = [2048, 2176, 2304, 2432, 2560, 2688, 2816, 2944, 3072, 3200, 3328, 3456, 3584, 3712, 3840, 3968] := by decide

theorem test_ulaw_spots :
    [0x00, 0x01, 0x10, 0x1F, 0x20, 0x7F, 0xE0, 0xFF].map (fun i => ulaw 0x1000 (BitVec.ofNat 8 i))
      = [-256, -240, -256, -16, 256, 1984, 16384, 31744] := by decide

theorem test_ulaw_other_bias :
    [0x00, 0x10, 0x2F, 0x80, 0xEF, 0xFF].map (fun i => ulaw 0x80 (BitVec.ofNat 8 i))
      = [8, -248, -264, -4032, -16896, 32256] := by decide

theorem test_interpolate :
    [interpolate 100 200 0x400, interpolate 100 200 0x7FF, interpolate (-100) (-101) 1, interpolate 32767 (-32768) 0x400,
      interpolate (-32768) (-32768) 0x7FF, interpolate (-1) 0 1] = [150, 199, -101, -1, -32768, -1] := by decide

theorem test_addresses :
    firstAddress 0x100000 0x800 = 0x100001 ∧ secondAddress 0xFFFFFFFF 0x100000 0x800 = 0x100002
      ∧ firstAddress 0 0xFFFFFC00 = 0x1FFFFF ∧ secondAddress 0xFFFFFFFF 0 0xFFFFFC00 = 0
      ∧ firstAddress 0 0x7FFFFC00 = 0xFFFFF ∧ secondAddress 0x7FFFFFFF 0 0x7FFFFC00 = 0 := by decide

theorem test_volume :
    [0x000, 0x0FF, 0x100, 0x1FF, 0x200, 0x800, 0xC00, 0xF00, 0xFFF].map (volume .standard)
      = [0, 0, 1, 1, 2, 128, 2048, 16384, 32704] := by decide

theorem test_contribution :
    [contribution .standard 1000 0xFFFF, contribution .standard 1000 0x8000, contribution .standard (-1) 0xFFFF,
      contribution .standard (-1000) 0x0FFF, contribution .standard 32767 0xFFFF, contribution .standard (-32768) 0xFFFF]
      = [15968, 62, -16, 0, 523248, -523264] := by decide

/-! ## Filter (section F): output and history after the last input -/

/-- The output and history after inputs, from a voice with the given pole select and coefficients. -/
def filtered (v : Voice) : List Int → Int × List Int
  | [] => (0, [v.o1n1.toInt, v.o2n1.toInt, v.o2n2.toInt, v.o3n1.toInt, v.o3n2.toInt, v.o4n1.toInt])
  | [x] =>
    let r := filter .wrap v x 0
    (r.y, (filtered r.voice []).2)
  | x :: xs => filtered (filter .wrap v x 0).voice xs

def poles (control k1 k2 : Hword) : Voice := { Voice.fresh with control := control, k1 := k1, k2 := k2 }

theorem test_filter_f1 : filtered (poles 0x300 0xFFFF 0xFFFF) [100, 100] = (96, [99, 98, 98, 97, 97, 96]) := by decide +kernel

theorem test_filter_f3 : filtered (poles 0x000 0xFFFF 0) [1000, 1000] = (0, [999, 998, 998, 499, 998, 0]) := by decide +kernel

theorem test_filter_f4 : filtered (poles 0x100 0xFFFF 0x8000) [1000, 1000] = (747, [999, 998, 998, 997, 997, 747]) := by
  decide +kernel

theorem test_filter_f5 : filtered (poles 0x200 0 0xFFFF) [1000] = (0, [0, 0, 0, 0, 0, 0]) := by decide +kernel

theorem test_filter_f8 : filtered { poles 0 0 0 with o3n1 := -3, o4n1 := -5 } [0, 0] = (1, [0, 0, 0, 0, -1, 1]) := by
  decide +kernel

theorem test_filter_f9 : filtered (poles 0 0xFFFF 0xFFFF) [1000, 1000, 1000] = (994, [999, 998, 998, 996, 997, 994]) := by
  decide +kernel

theorem test_filter_f10 :
    filtered { poles 0x300 0xFFFF 0 with o1n1 := -131072 } [32767] = (0, [-229386, 32772, 0, 32769, 0, 0])
      ∧ (cascade { poles 0x300 0xFFFF 0 with o1n1 := -131072 } 32767).overflow = true := by decide +kernel

/-- R160: an overflowing call draws seven values under draw, and a call that fits none. -/
theorem test_filter_draws :
    (filter .draw { poles 0x300 0xFFFF 0 with o1n1 := -131072 } 32767 3).draws = 10
      ∧ (filter .draw (poles 0x300 0xFFFF 0xFFFF) 100 3).draws = 3 := by decide +kernel

/-! ## Envelope (section E) -/

theorem test_envelope_e1 :
    let v := envelope { Voice.fresh with ecount := 10, lvol := 0xFF00, lvramp := 0x7F } 10
    v.lvol = 0xFFFF ∧ v.ecount = 0 ∧ v.filtCount = 10 := by decide +kernel

theorem test_envelope_e2 :
    let v := envelope { Voice.fresh with ecount := 5, lvol := 0x100, lvramp := 0x80, rvol := 0x100, rvramp := 1 } 3
    v.ecount = 2 ∧ v.lvol = 0 ∧ v.rvol = 0x103 ∧ v.filtCount = 3 := by decide +kernel

theorem test_envelope_e5_e6_e7 :
    let v := { Voice.fresh with ecount := 100, k1 := 0x1000, k1ramp := 0x80000010 }
    (envelope v 1).k1 = 0x1010 ∧ (envelope { v with filtCount := 1 } 1).k1 = 0x1000 ∧ (envelope v 20).k1 = 0x1140 := by
  decide +kernel

theorem test_envelope_e8 :
    let v := envelope { Voice.fresh with ecount := 511, k2 := 0x40, k2ramp := 0xF0 } 511
    v.k2 = 0 ∧ v.ecount = 0 ∧ v.filtCount = 255 := by decide +kernel

/-! ## Loop controller (section L): GENERATE(1) on a silent voice -/

theorem test_loop_l1 : (pass 0x28 0x1000 0x5000 0x4800 0x1800).accum = 0x2000
    ∧ (pass 0x28 0x1000 0x5000 0x4800 0x1800).control = 0x28 := by decide +kernel

theorem test_loop_l2 : (pass 0x48 0x1000 0x5000 0x1800 0x1000).accum = 0x4800 := by decide +kernel

theorem test_loop_l3 : (pass 0x18 0x1000 0x5000 0x4000 0x1800).accum = 0x4800
    ∧ (pass 0x18 0x1000 0x5000 0x4000 0x1800).control = 0x58 := by decide +kernel

theorem test_loop_l4 : (pass 0x58 0x1000 0x5000 0x1800 0x1000).accum = 0x1800
    ∧ (pass 0x58 0x1000 0x5000 0x1800 0x1000).control = 0x18 := by decide +kernel

theorem test_loop_l5 : (pass 0x30 0x1000 0x5000 0x4800 0x1800).accum = 0x2000
    ∧ (pass 0x30 0x1000 0x5000 0x4800 0x1800).control = 0x24
    ∧ (pass 0x24 0x1000 0x5000 0x5000 0x1800).accum = 0x6800 := by decide +kernel

theorem test_loop_l6 : (pass 0x20 0x1000 0x5000 0x4800 0x1800).accum = 0x6000
    ∧ (pass 0x20 0x1000 0x5000 0x4800 0x1800).control = 0x21 := by decide +kernel

theorem test_loop_l8 : (pass 0x40 0 0x5000 0x400 0x800).accum = 0xFFFFFC00 := by decide +kernel

theorem test_loop_l9 : (pass 0x08 0x1000 0x1000 0x800 0x800).accum = 0x800
    ∧ (pass 0x08 0x1000 0x1000 0x800 0x800).control = 0x09 := by decide +kernel

theorem test_loop_l10 : (pass 0 0 0x1000 0x800 0x800).accum = 0x1000 ∧ (pass 0 0 0x1000 0x1000 0x800).control = 1 := by
  decide +kernel

/-- L12: the 31-bit mask reduces a stopped voice's accumulator at pass entry. -/
theorem test_loop_l12 :
    ((after (exec (.generate 1) { one (loopVoice 1 0 0x1000 0x80000123 0x800) with
      params := { Params.standard with variant := .es5505 } })).voice 0).accum = 0x123 := by decide +kernel

theorem test_loop_l14 : (pass 0x18 0x1000 0x2800 0x1800 0x4000).accum = 0xFFFFF800 := by decide +kernel

/-! ## GENERATE: the whole pipeline (X2) and the arbiter (Q1 to Q4) -/

/-- X2's voice. Word 4 is supplied, as any value would do for it: its weight is 0 (R133). -/
def open_ : State :=
  { one { loopVoice 0x0320 0 0x1800 0 0x800 with k1 := 0xFFFF, k2 := 0xFFFF } with
    params := { Params.standard with region0 := some (memOfWords [100, 200, 300, 400, 0]) } }

theorem test_generate_x2 :
    (after (exec (.generate 5) open_)).trace
      = [.irqLine true, .buffers [1533, 3129, 4726, 6323, 0] [1533, 3129, 4726, 6323, 0]] := by decide +kernel

theorem test_generate_x2_end :
    let v := (after (exec (.generate 5) open_)).voice 0
    v.control = 0x0321 ∧ v.accum = 0x2000
      ∧ [v.o1n1, v.o2n1, v.o2n2, v.o3n1, v.o3n2, v.o4n1] = [399, 398, 298, 397, 297, 396] := by decide +kernel

/-- Voices 3 and 7 of section Q at their crossing. -/
def pair : State :=
  { (State.reset.setVoice 3 (loopVoice 0x20 0 0x800 0x800 0x800)).setVoice 7 (loopVoice 0x20 0 0x800 0x800 0x800) with
    activeVoiceCount := 7 }

theorem test_arbiter_q1 :
    let t := after (exec (.generate 1) pair)
    (t.voice 3).control = 0x21 ∧ (t.voice 7).control = 0xA1 ∧ t.irqVector = 3 := by decide +kernel

theorem test_arbiter_q2 :
    let t := after (exec (.generate 1) { (State.reset.setVoice 7 (loopVoice 0xA1 0 0x800 0x1000 0x800)) with
      activeVoiceCount := 7
      irqVector := 3 })
    t.irqVector = 3 ∧ (t.voice 7).control = 0xA1 ∧ t.trace.length = 1 := by decide +kernel

/-- Q6, M3. -/
theorem test_generate_zero : after (exec (.generate 0) pair) = { pair with trace := [.buffers [] []] } := by decide +kernel

/-! ## Each statement's hypotheses are met -/

theorem witness_DecodeOfEncode :
    (Instr.construct Params.standard).wf = true ∧ reachedIn 0b10 (.construct Params.standard) = true
      ∧ reachedIn 0b01 (.wrHAccum 0xFFFFFFFF) = true ∧ reachedIn 0b11 (.wrTRsvC 1 1 7) = true := by decide

theorem witness_EncodeOfDecode : decode 0b01 [0b01000011, 0, 0, 8, 0] = .ok (.wrHAccum 0x800) := by decide

theorem witness_StepRunsDecodedOperation :
    decode (State.reset.currentPage.extractLsb' 5 2) [0b00000000] = .ok .rdLCr
      ∧ decode (State.reset.currentPage.extractLsb' 5 2) [0b00110000] = .error .reservedBits
      ∧ ({ State.reset with hostOps := [[0b00000000]] } : State).hostOps = [0b00000000] :: []
      ∧ ({ State.reset with hostOps := [[0b00110000]] } : State).hostOps = [0b00110000] :: []
      ∧ State.reset.hostOps = [] := by decide

theorem witness_RefusedExactlyElseCompletes : ∀ r, ¬ Refuses .rdLCr State.reset r := by
  intro r h; cases h

theorem witness_ParametersAndQueueStand : goes (exec (.wrLFc 5) State.reset) = true := by decide

theorem witness_PortReadIsFreeOrZero : State.reset.params.portRead = false
    ∧ ({ State.reset with params := { Params.standard with portRead := true } } : State).params.portRead = true := by
  decide

theorem witness_RegisterReadDispatch : State.reset.regNow 14 = .irqv ∧ State.reset.regNow 13 = .par
    ∧ State.reset.regNow 0 = .cr := by decide

theorem witness_ByteWriteLatchesAndCommits : State.reset.params.variant = .es5506 ∧ wide.params.variant = .es5505
    ∧ 0x3E % 4 ≠ 3 ∧ 0x3F % 4 = 3 := by decide

theorem witness_ByteReadFillsAndDrains : State.reset.params.variant = .es5506 ∧ wide.params.variant = .es5505 := by decide

theorem witness_FourByteWritesAreOneRegisterWrite : State.reset.params.variant = .es5506 := by decide

theorem witness_WordWriteMergesLanes : wide.params.variant = .es5505 ∧ State.reset.params.variant = .es5506
    ∧ busLine wide.params 6 = some ⟨6, 2, .lo⟩ ∧ busLine wide.params 8 = none := by decide

theorem witness_WordReadReturnsHalf : wide.params.variant = .es5505 ∧ State.reset.params.variant = .es5506
    ∧ busLine wide.params 7 = some ⟨7, 14, .lo⟩ ∧ busLine wide.params 5 = none := by decide

/-- Both sides of the range: 31 and 32. -/
theorem witness_BankSelectWrites : 31 ≤ 31 ∧ 31 < 32 := by decide

/-- A register write, and BANK_W of the last voice. -/
theorem witness_OnlyNamedVoiceIsWritten :
    goes (exec (.wrLFc 5) State.reset) = true ∧ (1 : VoiceIx) ≠ State.reset.sel
      ∧ goes (exec (.bankW 31 5) State.reset) = true ∧ (0 : VoiceIx) ≠ BitVec.ofNat 5 31 := by decide

/-- Both kinds of state, the constructed one on an ES5506, and the three lanes with the last one. -/
theorem witness_ResetStopsEveryVoice :
    (∃ p s, exec (.construct p) s = .next (construct Params.standard wide))
      ∧ State.reset.params.variant = .es5506 ∧ (construct Params.standard wide).params.variant = .es5506
      ∧ 0x39 % 4 ≠ 0 ∧ 0x3B % 4 = 3 := ⟨⟨Params.standard, wide, rfl⟩, by decide⟩

/-- A safe state whose next step answers a state: reset with a write of CR waiting. -/
theorem witness_SafeKeptByEveryStep :
    let s : State := { State.reset with hostOps := [[0b01000000, 0, 0, 0, 0x20]] }
    Safe s ∧ goes (step s) = true := by
  refine ⟨⟨by decide, .inl rfl, ?_⟩, by decide⟩
  intro v
  have h : State.voice { State.reset with hostOps := [[0b01000000, 0, 0, 0, 0x20]] } v = Voice.fresh := by
    simp [State.voice, State.reset, State.fresh]
  rw [h]
  refine ⟨?_, ?_, ?_, ?_, ?_⟩ <;> decide

theorem witness_StopAndInhibitClearedOnlyByControlWrite :
    goes (exec (.wrLCr 0x20) State.reset) = true ∧ (State.reset.voice 0).control.getLsbD 0 = true
      ∧ ((after (exec (.wrLCr 0x20) State.reset)).voice 0).control.getLsbD 0 = false := by decide

theorem witness_VectorChangesOnlyByArbiterOrAcknowledge :
    (after (exec (.generate 1) pair)).irqVector ≠ pair.irqVector
      ∧ (after (exec .rdLIrqv { pair with irqVector := 3 })).irqVector ≠ 3
      ∧ (after (exec (.construct Params.standard) { pair with irqVector := 3 })).irqVector ≠ 3 := by decide

theorem witness_LineChangesAreNotified :
    (after (exec (.generate 1) pair)).irqLine ≠ pair.irqLine
      ∧ (after (exec .rdLIrqv { pair with irqVector := 3 })).irqLine ≠ ({ pair with irqVector := 3 } : State).irqLine := by
  decide

/-- Voice 7 is pair's last active voice. -/
theorem witness_AccumulatorsMaskedAfterPass : 0 < 1 ∧ (7 : VoiceIx).toNat ≤ pair.activeVoiceCount.toNat := by decide

theorem witness_InterruptNeverLostAndOnlyEnabledRaised :
    ((pair.setVoice 1 (loopVoice 0x80 0 0x800 0 0)).voice 1).irq = true ∧ (pair.voice 3).irq = false
      ∧ ((after (exec (.generate 1) pair)).voice 7).irq = true := by decide

theorem witness_DegenerateLoopStops : 0 < 1 ∧ (31 : VoiceIx).toNat ≤ State.reset.activeVoiceCount.toNat
    ∧ (State.reset.voice 31).start = (State.reset.voice 31).endAddr := by decide

theorem witness_OneSampleInOrder : open_.activeVoiceCount = 0 ∧ (open_.voice 0).stopped = false
    ∧ (open_.voice 0).start ≠ (open_.voice 0).endAddr
    ∧ regionOf open_.params (open_.voice 0).bank = some (memOfWords [100, 200, 300, 400, 0]) := by decide

theorem witness_StoppedVoicesAreSilent : 0 < 1 ∧ ∀ v : VoiceIx, v.toNat ≤ State.reset.activeVoiceCount.toNat →
    (State.reset.voice v).stopped = true ∨ (State.reset.voice v).start = (State.reset.voice v).endAddr := by
  decide

/-- `open_` wraps; with draw in its place the first half of the statement speaks. -/
theorem witness_VoicesPlayIndependently : 0 < 5 ∧ open_.params.filterOverflow = .wrap
    ∧ (0 : VoiceIx).toNat ≤ open_.activeVoiceCount.toNat := by decide

theorem witness_BuffersAreTheSumOfTheVoices : 0 < 5 ∧ open_.params.filterOverflow = .wrap := by decide

theorem witness_BatchSplitsWithoutSlowRamps :
    (open_.voice 0).k1ramp.getLsbD 31 = false ∧ (open_.voice 0).k2ramp.getLsbD 31 = false := by decide

/-- A state with voices 3 and 7 pending and the vector free, one with the vector latched, one with nothing pending. -/
theorem witness_ArbiterLatchesLowestPending :
    let s := (pair.setVoice 3 (loopVoice 0x80 0 0 0 0)).setVoice 7 (loopVoice 0x80 0 0 0 0)
    (s.irqVector.getLsbD 7 = true ∧ (3 : VoiceIx).toNat ≤ s.activeVoiceCount.toNat ∧ (s.voice 3).irq = true
        ∧ ∀ u : VoiceIx, u.toNat < (3 : VoiceIx).toNat → (s.voice u).irq = false)
      ∧ ({ s with irqVector := 3 } : State).irqVector.getLsbD 7 = false
      ∧ (∀ v : VoiceIx, v.toNat ≤ State.reset.activeVoiceCount.toNat → (State.reset.voice v).irq = false)
      ∧ 0 < 1 := by
  decide

/-- At the boundary exactly, in each direction, and inhibited. -/
theorem witness_AdvanceMovesAndOnlyCrossingsChange :
    (loopVoice 0x04 0 0 0 0).lei = true
      ∧ ((loopVoice 0 0x1000 0x5000 0x5000 0).dir = false ∧ (0x5000 : Word).toNat ≤ (0x5000 : Word).toNat)
      ∧ ((loopVoice 0x40 0x1000 0x5000 0x1000 0).dir = true ∧ (0x1000 : Word).toNat ≤ (0x1000 : Word).toNat) := by
  decide

/-- The hypotheses of a crossing, as the four loop statements have them. -/
def crosses (v : Voice) : Prop := if v.dir then v.accum.toNat < v.start.toNat else v.endAddr.toNat < v.accum.toNat

theorem witness_UnloopedCrossingStops :
    let v := loopVoice 0x00 0x1000 0x5000 0x5001 0
    let w := loopVoice 0x40 0x1000 0x5000 0x0FFF 0
    (v.lei = false ∧ v.ble = false ∧ v.lpe = false ∧ crosses v) ∧ w.lei = false ∧ w.ble = false ∧ w.lpe = false
      ∧ crosses w := by
  unfold crosses; decide

theorem witness_UnidirectionalLoopWraps :
    let v := loopVoice 0x08 0x1000 0x5000 0x5001 0
    let w := loopVoice 0x48 0x1000 0x5000 0x0FFF 0
    (v.lei = false ∧ v.ble = false ∧ v.lpe = true ∧ crosses v) ∧ w.lei = false ∧ w.ble = false ∧ w.lpe = true
      ∧ crosses w := by
  unfold crosses; decide

theorem witness_TransWaveSpendsItself :
    let v := loopVoice 0x10 0x1000 0x5000 0x5001 0
    let w := loopVoice 0x50 0x1000 0x5000 0x0FFF 0
    (v.lei = false ∧ v.ble = true ∧ v.lpe = false ∧ crosses v) ∧ w.lei = false ∧ w.ble = true ∧ w.lpe = false
      ∧ crosses w := by
  unfold crosses; decide

theorem witness_BidirectionalLoopReflects :
    let v := loopVoice 0x18 0x1000 0x5000 0x5001 0
    let w := loopVoice 0x58 0x1000 0x5000 0x0FFF 0
    (v.lei = false ∧ v.ble = true ∧ v.lpe = true ∧ crosses v) ∧ w.lei = false ∧ w.ble = true ∧ w.lpe = true
      ∧ crosses w := by
  unfold crosses; decide

/-- Both sides of `ecount = 0`, and a ramp on both sides of its gate. -/
theorem witness_EnvelopeStep :
    Voice.fresh.ecount = 0 ∧ ({ Voice.fresh with ecount := 1 } : Voice).ecount ≠ 0
      ∧ ((0x80000010 : Word) ≠ 0 ∧ (0 : Byte).toNat % 8 = 0)
      ∧ ¬ ((0x80000010 : Word) ≠ 0 ∧ ((0x80000010 : Word).toNat < 2147483648 ∨ (1 : Byte).toNat % 8 = 0)) := by decide

/-- The last sample the statement speaks of: j = 510 with ecount = 511; and j = 8, on which the ramp fires. -/
theorem witness_SlowRampFiresOneInEight :
    let v := { Voice.fresh with ecount := 511, k1ramp := 0x80000010, k2ramp := 0x80000010 }
    v.filtCount = 0 ∧ v.k1ramp.getLsbD 31 = true ∧ v.k2ramp.getLsbD 31 = true ∧ 510 < v.ecount.toNat
      ∧ 510 % 8 ≠ 0 ∧ 8 < v.ecount.toNat ∧ 8 % 8 = 0 := by decide

/-- The last word of a region. -/
theorem witness_SuppliedWordsAreRead : 4 < ([100, 200, 300, 400, 0] : List Hword).length := by decide

/-- X2's sample 4: words 3 and 4. -/
theorem witness_SampleBlendsTwoWords :
    0 + 0x1800 / 2048 < ([100, 200, 300, 400, 0] : List Hword).length
      ∧ 0 + (0x1800 + 2048) % 4294967296 % ((0xFFFFFFFF : Word).toNat + 1) / 2048
        < ([100, 200, 300, 400, 0] : List Hword).length := by decide

theorem witness_InterpolationStaysBetween : (0x1800 : Word).toNat % 2048 = 0 := by decide

/-- The extreme distance, the largest coefficient that holds, and the ends of 18 bits. -/
theorem witness_FilterSectionsAreExactAndBounded :
    (-2147483648 ≤ (131071 : Int) ∧ (131071 : Int) ≤ 2147483647 ∧ (131071 : Int) - 0 ≤ 131071 ∧ (0 : Int) - 131071 ≤ 131071)
      ∧ (3 : Hword).toNat < 4 ∧ (-131072 : Int) ≤ -131072 ∧ (131071 : Int) ≤ 131071 := by decide

/-- Pole 1 of F1's call, every step of which fits i32; and of F10's, whose product does not. -/
theorem witness_FilterCascadesFourPoles :
    let c : Int := ((0xFFFF : Hword).toNat / 4 : Nat)
    (c * (100 - 0) ≤ 2147483647 ∧ (cascade (poles 0x300 0xFFFF 0xFFFF) 100).overflow = false)
      ∧ ¬ c * (32767 - -131072) ≤ 2147483647 := by decide

theorem witness_VolumeStageScalesAndAccumulates :
    4095 < 4096 ∧ 1 < ([5, 6] : List Hword).length ∧ (-32768 : Int) ≤ -32768 ∧ (-32768 : Int) ≤ 32767
      ∧ (32767 : Int) ≤ 32767 := by decide

end Sys2Proof.Tests
end

section
/-! PROOFS. What a completed operation can do, said once (`Completes`, `exec_eq_next_iff`), and from it what every
operation keeps of the run it stands in: the queue, the outputs already given and, CONSTRUCT apart, the parameters
(spec/00_scope.md R5, R12, R31). -/

namespace Sys2Proof.Machine

/-! ## The operations that complete -/

/-- The write of a key is the write of the register the key's group gives its number (R91, R92, R240). -/
theorem exec_writeInstr (g : BitVec 2) (reg : BitVec 4) (d : Word) (s : State) :
    exec (writeInstr g reg d) s = .next (writeReg (regAt (pageGroup g) reg) d s) := by
  match g, reg with
  | ⟨⟨g, hg⟩⟩, ⟨⟨reg, hr⟩⟩ => interval_cases g <;> interval_cases reg <;> rfl

/-- The read of a key is the read of the register the key's group gives its number (R91, R92, R241). -/
theorem exec_readInstr (g : BitVec 2) (reg : BitVec 4) (s : State) :
    exec (readInstr g reg) s = .next (returned (readReg (regAt (pageGroup g) reg) s)) := by
  match g, reg with
  | ⟨⟨g, hg⟩⟩, ⟨⟨reg, hr⟩⟩ => interval_cases g <;> interval_cases reg <;> rfl

/-- `Completes s i t`: the operation `i` completes from `s` and leaves `t`. The counterpart of `Refuses`. -/
inductive Completes (s : State) : Instr → State → Prop where
  | write (g : BitVec 2) (reg : BitVec 4) (d : Word) :
      Completes s (writeInstr g reg d) (writeReg (regAt (pageGroup g) reg) d s)
  | read (g : BitVec 2) (reg : BitVec 4) :
      Completes s (readInstr g reg) (returned (readReg (regAt (pageGroup g) reg) s))
  | generate (n : Nat) : Completes s (.generate n) (generate n s)
  | bankW (voice : Nat) (value : Word) (h : voice ≤ 31) :
      Completes s (.bankW voice value)
        (s.setVoice (BitVec.ofNat 5 voice) { s.voice (BitVec.ofNat 5 voice) with exBank := value })
  | bus8Wb (a : Nat) (b : Byte) (h : s.params.variant = .es5506) : Completes s (.bus8Wb a b) (bus8Write a b s)
  | bus8Rb (a : Nat) (h : s.params.variant = .es5506) :
      Completes s (.bus8Rb a) ((bus8Read a s).2.emit (.readByte (bus8Read a s).1))
  | bus16W (off : Nat) (data : Hword) (lanes : BitVec 2) (h : s.params.variant = .es5505) :
      Completes s (.bus16W off data lanes) (bus16Write off data lanes s)
  | bus16R (off : Nat) (h : s.params.variant = .es5505) :
      Completes s (.bus16R off) ((bus16Read off s).2.emit (.readHword (bus16Read off s).1))
  | construct (p : Params) : Completes s (.construct p) (construct p s)

/-- All a completed operation can have done. -/
theorem completes_of_exec {i : Instr} {s t : State} (h : exec i s = .next t) : Completes s i t := by
  rcases instr_shape i with ⟨g, reg, d, rfl⟩ | ⟨g, reg, rfl⟩ | ⟨code, hcode⟩
  · rw [exec_writeInstr] at h
    cases h
    exact .write g reg d
  · rw [exec_readInstr] at h
    cases h
    exact .read g reg
  · cases i with
    | generate n => cases h; exact .generate n
    | construct p => cases h; exact .construct p
    | bankW voice value =>
      simp only [exec, execBankW] at h
      split at h
      next hv => cases h; exact .bankW voice value hv
      next => cases h
    | bus8Wb a b =>
      simp only [exec, execBus8Wb] at h
      split at h
      next hv => cases h; exact .bus8Wb a b hv
      next => cases h
    | bus8Rb a =>
      simp only [exec, execBus8Rb] at h
      split at h
      next hv => cases h; exact .bus8Rb a hv
      next => cases h
    | bus16W off data lanes =>
      simp only [exec, execBus16W] at h
      split at h
      next hv => cases h; exact .bus16W off data lanes hv
      next => cases h
    | bus16R off =>
      simp only [exec, execBus16R] at h
      split at h
      next hv => cases h; exact .bus16R off hv
      next => cases h
    | callRsv => cases h
    | _ => cases hcode

/-- `Completes` says no more than `exec` does. -/
theorem exec_of_completes {i : Instr} {s t : State} (h : Completes s i t) : exec i s = .next t := by
  cases h with
  | write g reg d => exact exec_writeInstr g reg d s
  | read g reg => exact exec_readInstr g reg s
  | generate n => rfl
  | bankW voice value hv => simp only [exec, execBankW, if_pos hv]
  | bus8Wb a b hv => simp only [exec, execBus8Wb, hv]
  | bus8Rb a hv => simp only [exec, execBus8Rb, hv]
  | bus16W off data lanes hv => simp only [exec, execBus16W, hv]
  | bus16R off hv => simp only [exec, execBus16R, hv]
  | construct p => rfl

theorem exec_eq_next_iff (i : Instr) (s t : State) : exec i s = .next t ↔ Completes s i t :=
  ⟨completes_of_exec, exec_of_completes⟩

/-! ## What an operation keeps of the run -/

/-- From `s` to `t` the queue and the parameters stand, and the trace is only appended to. -/
structure KeepsRun (s t : State) : Prop where
  hostOps : t.hostOps = s.hostOps
  trace : s.trace <+: t.trace
  params : t.params = s.params

theorem KeepsRun.refl (s : State) : KeepsRun s s := ⟨rfl, List.prefix_rfl, rfl⟩

/-- An output given after what keeps the run. -/
theorem KeepsRun.emit {s t : State} (h : KeepsRun s t) (e : Output) : KeepsRun s (t.emit e) :=
  ⟨h.hostOps, h.trace.trans (List.prefix_append _ _), h.params⟩

theorem writeReg_keepsRun (r : Reg) (d : Word) (s : State) : KeepsRun s (writeReg r d s) :=
  ⟨writeReg_hostOps r d s, writeReg_trace_prefix r d s, writeReg_params r d s⟩

theorem readReg_trace_prefix (r : Reg) (s : State) : s.trace <+: (readReg r s).2.trace := by
  rw [readReg_trace]
  split
  · exact List.prefix_append _ _
  · exact List.prefix_rfl

theorem readReg_keepsRun (r : Reg) (s : State) : KeepsRun s (readReg r s).2 :=
  ⟨readReg_hostOps r s, readReg_trace_prefix r s, readReg_params r s⟩

theorem generate_keepsRun (n : Nat) (s : State) : KeepsRun s (generate n s) := by
  rcases Nat.eq_zero_or_pos n with rfl | hn
  · exact (KeepsRun.refl s).emit _
  · rcases generate_cases n s hn with ⟨-, e⟩ | ⟨v, -, -, -, -, e⟩
    · rw [e]
      exact ⟨rfl, List.prefix_append _ _, rfl⟩
    · rw [e]
      exact ⟨rfl, (List.prefix_append _ _).trans (List.prefix_append _ _), rfl⟩

/-- The latches are no part of what `KeepsRun` speaks of, so a commit keeps the run as its register write does. -/
theorem bus8Write_keepsRun (a : Nat) (b : Byte) (s : State) : KeepsRun s (bus8Write a b s) := by
  rcases bus8Write_cases a b s with ⟨-, e⟩ | ⟨-, d, e⟩
  · rw [e]
    exact ⟨rfl, List.prefix_rfl, rfl⟩
  · obtain ⟨hq, ht, hp⟩ := writeReg_keepsRun (s.regNow (busReg a)) d { s with writeLatch := d }
    rw [e]
    exact ⟨hq, ht, hp⟩

theorem bus8Read_keepsRun (a : Nat) (s : State) : KeepsRun s (bus8Read a s).2 := by
  rcases bus8Read_cases a s with ⟨-, e⟩ | ⟨-, e⟩
  · obtain ⟨hq, ht, hp⟩ := readReg_keepsRun (s.regNow (busReg a)) s
    rw [e]
    exact ⟨hq, ht, hp⟩
  · rw [e]
    exact KeepsRun.refl s

theorem bus16Write_keepsRun (off : Nat) (data : Hword) (lanes : BitVec 2) (s : State) :
    KeepsRun s (bus16Write off data lanes s) := by
  rcases bus16Write_cases off data lanes s with ⟨-, e⟩ | ⟨l, -, e⟩
  · rw [e]
    exact KeepsRun.refl s
  · rw [e]
    exact writeReg_keepsRun _ _ s

theorem bus16Read_keepsRun (off : Nat) (s : State) : KeepsRun s (bus16Read off s).2 := by
  rcases bus16Read_cases off s with ⟨-, e⟩ | ⟨l, -, e⟩
  · rw [e]
    exact KeepsRun.refl s
  · rw [e]
    exact readReg_keepsRun _ s

/-- Every completed operation but CONSTRUCT keeps the run. -/
theorem Completes.keepsRun {s t : State} {i : Instr} (h : Completes s i t) (hc : ∀ p, i ≠ .construct p) :
    KeepsRun s t := by
  cases h with
  | write g reg d => exact writeReg_keepsRun _ d s
  | read g reg => exact (readReg_keepsRun _ s).emit _
  | generate n => exact generate_keepsRun n s
  | bankW voice value => exact ⟨rfl, List.prefix_rfl, rfl⟩
  | bus8Wb a b => exact bus8Write_keepsRun a b s
  | bus8Rb a => exact (bus8Read_keepsRun a s).emit _
  | bus16W off data lanes => exact bus16Write_keepsRun off data lanes s
  | bus16R off => exact (bus16Read_keepsRun off s).emit _
  | construct p => exact absurd rfl (hc p)

/-- Settles O6: CONSTRUCT carries queue and trace over by definition, and every other operation keeps the run. -/
theorem parametersAndQueueStand : Obligations.ParametersAndQueueStand := by
  unfold Obligations.ParametersAndQueueStand
  intro i s t h
  by_cases hc : ∃ p, i = .construct p
  · obtain ⟨p, rfl⟩ := hc
    cases h
    exact ⟨construct_hostOps s p, (construct_trace s p).symm ▸ List.prefix_rfl, .inr ⟨p, rfl⟩⟩
  · obtain ⟨hq, ht, hp⟩ := ((exec_eq_next_iff i s t).mp h).keepsRun fun p e => hc ⟨p, e⟩
    exact ⟨hq, ht, .inl hp⟩

end Sys2Proof.Machine
end

section
/-! PROOFS. What one GENERATE does to each voice and to the chip, said once for every N (`generate_voice_cases`,
`generate_frame`), and the pass's frame (O37). -/

namespace Sys2Proof.Machine

/-! ## The arbiter's flag write -/

theorem clearIrq_clearIrq (v : Voice) : clearIrq (clearIrq v) = clearIrq v := by
  simp only [clearIrq, clearBits, BitVec.and_assoc, BitVec.and_self]

/-- Clearing IRQ leaves the control bits below it. -/
theorem clearIrq_getLsbD (v : Voice) {bit : Nat} (h : bit < 7) :
    (clearIrq v).control.getLsbD bit = v.control.getLsbD bit := by
  have outside : (0x0080 : Hword).getLsbD bit = false := by interval_cases bit <;> rfl
  have inside : bit < 16 := by omega
  rw [clearIrq_control, BitVec.getLsbD_and, BitVec.getLsbD_not, outside]
  simp [inside]

/-! ## One pass -/

/-- A pass leaves a voice as the mix left it, but for the flag the arbiter clears of an active voice. -/
theorem generate_voice_cases (n : Nat) (s : State) (h : 0 < n) (v : VoiceIx) :
    let mixed := (mixVoices s (List.replicate n ⟨0, 0⟩) s.activeVoices).1
    (generate n s).voice v = mixed.voice v
      ∨ (v ∈ s.activeVoices ∧ (generate n s).voice v = clearIrq (mixed.voice v)) := by
  intro mixed
  rcases generate_cases n s h with ⟨-, e⟩ | ⟨u, hu, -, -, -, e⟩
  · rw [e]
    exact .inl rfl
  · have hv : (generate n s).voice v = (mixed.setVoice u (clearIrq (mixed.voice u))).voice v := by rw [e]; rfl
    by_cases hvu : v = u
    · subst hvu
      exact .inr ⟨hu, hv.trans (State.voice_setVoice_same ..)⟩
    · exact .inl (hv.trans (State.voice_setVoice_ne _ _ hvu))

/-- What a pass does to any voice: the engine plays it, and the arbiter may clear its flag (R208, R324). -/
theorem generate_plays (n : Nat) (s : State) (v : VoiceIx) :
    ∃ w, Plays (s.voice v) w ∧ ((generate n s).voice v = w ∨ (generate n s).voice v = clearIrq w) := by
  rcases Nat.eq_zero_or_pos n with rfl | hn
  · exact ⟨s.voice v, Plays.refl _, .inl rfl⟩
  · exact ⟨_, plays_mixVoices s.activeVoices s _ v, (generate_voice_cases n s hn v).imp_right And.right⟩

/-- A voice above the active ones takes no part in a pass (R223). -/
theorem generate_voice_inactive (n : Nat) (s : State) (v : VoiceIx) (h : s.activeVoiceCount.toNat < v.toNat) :
    (generate n s).voice v = s.voice v := by
  have inactive : v ∉ s.activeVoices := fun hv => Nat.not_le_of_lt h ((mem_activeVoices s v).mp hv)
  rcases Nat.eq_zero_or_pos n with rfl | hn
  · rfl
  · rcases generate_voice_cases n s hn v with e | ⟨hv, -⟩
    · exact e.trans (mixVoices_voice_of_not_mem _ s _ inactive)
    · exact absurd hv inactive

/-- All of the chip that a pass may write. -/
theorem generate_frame (n : Nat) (s : State) : ∃ voices vector draws trace, generate n s
    = { s with voices := voices, irqVector := vector, filterDraws := draws, trace := trace } := by
  rcases Nat.eq_zero_or_pos n with rfl | hn
  · exact ⟨s.voices, s.irqVector, s.filterDraws, _, rfl⟩
  · rcases generate_cases n s hn with ⟨-, e⟩ | ⟨v, -, -, -, -, e⟩
    · exact ⟨_, s.irqVector, _, _, e⟩
    · exact ⟨_, _, _, _, e⟩

/-- A pass leaves the vector as it was or puts an active voice's index there (R324). -/
theorem generate_irqVector (n : Nat) (s : State) :
    (generate n s).irqVector = s.irqVector ∨ ∃ v ∈ s.activeVoices, (generate n s).irqVector = v.setWidth 8 := by
  rcases Nat.eq_zero_or_pos n with rfl | hn
  · exact .inl rfl
  · rcases generate_cases n s hn with ⟨-, e⟩ | ⟨v, hv, -, -, -, e⟩
    · exact .inl (by rw [e])
    · exact .inr ⟨v, hv, by rw [e]⟩

/-- What a pass keeps of a voice, active or not: the host's registers and the control bits the engine does not own. -/
theorem generate_voice_frame (n : Nat) (s : State) (v : VoiceIx) :
    let after := (generate n s).voice v
    let before := s.voice v
    after.control &&& 0xFF22 = before.control &&& 0xFF22 ∧ after.freqCount = before.freqCount
      ∧ after.start = before.start ∧ after.endAddr = before.endAddr ∧ after.lvramp = before.lvramp
      ∧ after.rvramp = before.rvramp ∧ after.k1ramp = before.k1ramp ∧ after.k2ramp = before.k2ramp
      ∧ after.exBank = before.exBank := by
  obtain ⟨w, hp, e⟩ := generate_plays n s v
  rcases e with e | e <;> simp only [e] <;>
    refine ⟨?_, hp.freqCount, hp.start, hp.endAddr, hp.lvramp, hp.rvramp, hp.k1ramp, hp.k2ramp, hp.exBank⟩
  · exact hp.control
  · exact (and_not_and_of_disjoint w.control (by decide)).trans hp.control

/-- Settles O37: the chip by `generate_frame`, the voices by `generate_voice_inactive` and `generate_voice_frame`. -/
theorem generateFrame : Obligations.GenerateFrame := by
  unfold Obligations.GenerateFrame
  intro n s
  have voices := fun v => And.intro (generate_voice_inactive n s v) (generate_voice_frame n s v)
  refine ⟨generate n s, rfl, ?_⟩
  obtain ⟨_, _, _, _, e⟩ := generate_frame n s
  rw [e] at voices ⊢
  exact ⟨rfl, rfl, rfl, rfl, rfl, rfl, rfl, rfl, rfl, rfl, rfl, rfl, voices⟩

end Sys2Proof.Machine
end

section
/-! PROOFS. What the decoder answers is well formed (spec/30_encoding.md R109): only CONSTRUCT's operands carry checks,
and their reader makes them. -/

namespace Sys2Proof

theorem getCall_wf {code : Nat} {bytes rest : List Byte} {i : Instr} (h : getCall code bytes = some (i, rest)) :
    i.wf = true := by
  match code, h with
  | 0, h | 3, h | 5, h =>
    obtain ⟨_, -, h⟩ := of_bind_eq h
    cases h; rfl
  | 1, h | 2, h =>
    obtain ⟨_, -, h⟩ := of_bind_eq h
    obtain ⟨_, -, h⟩ := of_bind_eq h
    cases h; rfl
  | 4, h =>
    obtain ⟨_, -, h⟩ := of_bind_eq h
    obtain ⟨_, -, h⟩ := of_bind_eq h
    obtain ⟨_, -, h⟩ := of_bind_eq h
    obtain ⟨-, h⟩ := Option.ite_none_right_eq_some.mp h
    cases h; rfl
  | 6, h =>
    obtain ⟨_, hp, h⟩ := of_bind_eq h
    cases h
    exact (putParams_of_getParams hp).1
  | _ + 7, h => cases h; rfl

theorem wholeFrame_ok {r : Option (Instr × List Byte)} {i : Instr} (h : wholeFrame r = .ok i) : r = some (i, []) := by
  match r, h with
  | some (_, []), h => cases h; rfl

/-- Whatever frame decodes, decodes to a well-formed operation. -/
theorem decode_wf {g : BitVec 2} {frame : List Byte} {i : Instr} (h : decode g frame = .ok i) : i.wf = true := by
  cases frame with
  | nil => cases h
  | cons b operands =>
    simp only [decode] at h
    split at h
    · split at h
      · exact getCall_wf (wholeFrame_ok h)
      · cases h
    · split at h
      · cases h
      · split at h
        · obtain ⟨⟨d, rest⟩, -, h⟩ := of_bind_eq (wholeFrame_ok h)
          cases h
          exact writeInstr_wf g _ _
        · cases wholeFrame_ok h
          exact readInstr_wf g _

end Sys2Proof
end

section
/-! PROOFS. Safe states (O31, O32): reset is one, and whatever operation completes keeps the state safe, so every step
does (spec/10_state.md R26, R45 to R47, R52). -/

namespace Sys2Proof.Machine

/-! ## Safe voices -/

theorem voiceSafe_fresh (p : Params) : VoiceSafe p Voice.fresh :=
  ⟨BitVec.zero_and, BitVec.zero_and, BitVec.zero_and, BitVec.zero_and, BitVec.zero_and⟩

/-- Playing writes none of the fields that `VoiceSafe` speaks of. -/
theorem Plays.voiceSafe {v w : Voice} (h : Plays v w) {p : Params} (hv : VoiceSafe p v) : VoiceSafe p w := by
  rw [VoiceSafe, h.freqCount, h.start, h.endAddr, h.k1ramp, h.k2ramp]
  exact hv

/-! ## Safe states -/

/-- Settles O31. -/
theorem safeAtReset : Obligations.SafeAtReset := by
  unfold Obligations.SafeAtReset
  refine ⟨reset_params_wf, .inl rfl, fun v => ?_⟩
  rw [State.reset, State.voice_fresh]
  exact voiceSafe_fresh _

theorem construct_safe {p : Params} (hp : p.wf = true) (s : State) : Safe (construct p s) := by
  refine ⟨hp, .inl rfl, fun v => ?_⟩
  rw [construct_voice]
  exact voiceSafe_fresh p

theorem writeReg_safe (r : Reg) (d : Word) {s : State} (h : Safe s) : Safe (writeReg r d s) := by
  obtain ⟨hp, hi, hv⟩ := h
  rw [Safe, writeReg_params, writeReg_irqVector]
  exact ⟨hp, hi, fun v => writeReg_voiceSafe r d s v (hv v)⟩

/-- A read changes nothing `Safe` speaks of but the vector, which it may free. -/
theorem readReg_safe (r : Reg) {s : State} (h : Safe s) : Safe (readReg r s).2 := by
  obtain ⟨hp, hi, hv⟩ := h
  rw [Safe, readReg_params, readReg_irqVector]
  refine ⟨hp, ?_, fun v => (readReg_voice r s v).symm ▸ hv v⟩
  split
  · exact .inl rfl
  · exact hi

theorem generate_safe (n : Nat) {s : State} (h : Safe s) : Safe (generate n s) := by
  obtain ⟨hp, hi, hv⟩ := h
  have params : (generate n s).params = s.params := (generate_keepsRun n s).params
  rw [Safe, params]
  refine ⟨hp, ?_, fun v => ?_⟩
  · rcases generate_irqVector n s with e | ⟨v, -, e⟩ <;> rw [e]
    · exact hi
    · exact .inr (by rw [BitVec.toNat_setWidth_of_le (by decide)]; exact v.isLt)
  · obtain ⟨w, play, e⟩ := generate_plays n s v
    have safe : VoiceSafe s.params w := play.voiceSafe (hv v)
    rcases e with e | e <;> rw [e] <;> exact safe

theorem setExBank_safe (v : VoiceIx) (value : Word) {s : State} (h : Safe s) :
    Safe (s.setVoice v { s.voice v with exBank := value }) := by
  obtain ⟨hp, hi, hv⟩ := h
  refine ⟨hp, hi, fun w => ?_⟩
  rw [State.voice_setVoice]
  split
  · exact hv v
  · exact hv w

/-- The latches are no part of what `Safe` speaks of. -/
theorem bus8Write_safe (a : Nat) (b : Byte) {s : State} (h : Safe s) : Safe (bus8Write a b s) := by
  rcases bus8Write_cases a b s with ⟨-, e⟩ | ⟨-, d, e⟩ <;> rw [e]
  · exact h
  · have latched : Safe { s with writeLatch := d } := h
    exact writeReg_safe (s.regNow (busReg a)) d latched

theorem bus8Read_safe (a : Nat) {s : State} (h : Safe s) : Safe (bus8Read a s).2 := by
  rcases bus8Read_cases a s with ⟨-, e⟩ | ⟨-, e⟩ <;> rw [e]
  · exact readReg_safe (s.regNow (busReg a)) h
  · exact h

theorem bus16Write_safe (off : Nat) (data : Hword) (lanes : BitVec 2) {s : State} (h : Safe s) :
    Safe (bus16Write off data lanes s) := by
  rcases bus16Write_cases off data lanes s with ⟨-, e⟩ | ⟨l, -, e⟩ <;> rw [e]
  · exact h
  · exact writeReg_safe _ _ h

theorem bus16Read_safe (off : Nat) {s : State} (h : Safe s) : Safe (bus16Read off s).2 := by
  rcases bus16Read_cases off s with ⟨-, e⟩ | ⟨l, -, e⟩ <;> rw [e]
  · exact h
  · exact readReg_safe _ h

/-- An output changes nothing `Safe` speaks of. -/
theorem Safe.emit {s : State} (h : Safe s) (e : Output) : Safe (s.emit e) := h

/-- A well-formed operation that completes keeps the state safe. -/
theorem Completes.safe {s t : State} {i : Instr} (h : Completes s i t) (hw : i.wf = true) (hs : Safe s) : Safe t := by
  cases h with
  | write g reg d => exact writeReg_safe _ d hs
  | read g reg => exact (readReg_safe _ hs).emit _
  | generate n => exact generate_safe n hs
  | bankW voice value => exact setExBank_safe _ value hs
  | bus8Wb a b => exact bus8Write_safe a b hs
  | bus8Rb a => exact (bus8Read_safe a hs).emit _
  | bus16W off data lanes => exact bus16Write_safe off data lanes hs
  | bus16R off => exact (bus16Read_safe off hs).emit _
  | construct p => exact construct_safe hw s

/-- All a step that answers a state can have done: idled on an empty queue, or run the well-formed operation of the
first frame with that frame taken off. -/
theorem step_cases {s t : State} (h : step s = .next t) :
    (s.hostOps = [] ∧ t = s)
      ∨ ∃ frame rest i, s.hostOps = frame :: rest ∧ i.wf = true ∧ Completes { s with hostOps := rest } i t := by
  unfold step nextFrame decodeNow at h
  cases hq : s.hostOps with
  | nil =>
    rw [hq] at h
    cases h
    exact .inl ⟨rfl, rfl⟩
  | cons frame rest =>
    rw [hq] at h
    simp only at h
    split at h
    next => cases h
    next i hd => exact .inr ⟨frame, rest, i, rfl, decode_wf hd, completes_of_exec h⟩

/-- Settles O32: a step idles, or it runs a well-formed operation that completes. -/
theorem safeKeptByEveryStep : Obligations.SafeKeptByEveryStep := by
  unfold Obligations.SafeKeptByEveryStep
  intro s t hs h
  rcases step_cases h with ⟨-, rfl⟩ | ⟨frame, rest, i, -, hw, hc⟩
  · exact hs
  · have dequeued : Safe { s with hostOps := rest } := hs
    exact hc.safe hw dequeued

end Sys2Proof.Machine
end

section
/-! PROOFS. Who clears a stop bit or LEI (O33, spec/10_state.md R34 to R36, spec/44_loop.md R208): only a write of CR
to the selected voice, and CONSTRUCT. -/

namespace Sys2Proof.Machine

/-- From `s` to `t` the control bit `bit` of voice `v` is cleared. -/
def Clears (v : VoiceIx) (bit : Nat) (s t : State) : Prop :=
  (s.voice v).control.getLsbD bit = true ∧ (t.voice v).control.getLsbD bit = false

theorem not_clears_of_control_eq {v : VoiceIx} {bit : Nat} {s t : State}
    (h : (t.voice v).control = (s.voice v).control) : ¬ Clears v bit s t := by
  rintro ⟨set, clear⟩
  rw [h, set] at clear
  cases clear

/-- A register write that clears a control bit is the write of CR to the selected voice. -/
theorem writeReg_of_clears {r : Reg} {d : Word} {s : State} {v : VoiceIx} {bit : Nat}
    (h : Clears v bit s (writeReg r d s)) : r = .cr ∧ v = s.sel := by
  constructor
  · by_contra hr
    exact not_clears_of_control_eq (writeReg_control r d s v hr) h
  · by_contra hv
    exact not_clears_of_control_eq (by rw [writeReg_voice_ne r d s hv]) h

/-- No pass of the engine or the arbiter clears STOP0, STOP1 or LEI. -/
theorem generate_not_clears (n : Nat) (s : State) (v : VoiceIx) {bit : Nat} (hb : bit < 3) :
    ¬ Clears v bit s (generate n s) := by
  rintro ⟨set, clear⟩
  obtain ⟨w, play, e⟩ := generate_plays n s v
  have kept : w.control.getLsbD bit = true := play.stays bit hb set
  rcases e with e | e <;> rw [e] at clear
  · rw [kept] at clear
    cases clear
  · rw [clearIrq_getLsbD w (by omega), kept] at clear
    cases clear

theorem setExBank_not_clears (u : VoiceIx) (value : Word) (s : State) (v : VoiceIx) (bit : Nat) :
    ¬ Clears v bit s (s.setVoice u { s.voice u with exBank := value }) := by
  apply not_clears_of_control_eq
  rw [State.voice_setVoice]
  split
  next h => rw [h]
  next => rfl

/-- The keys of CR: register 0 of the low and of the high group (R93, R94). -/
theorem regAt_eq_cr :
    ∀ (g : BitVec 2) (reg : BitVec 4), regAt (pageGroup g) reg = .cr → (g = 0 ∨ g = 1) ∧ reg = 0 := by
  decide

/-- The write of a key of CR is WR.L.CR or WR.H.CR. -/
theorem writesCr_writeInstr {g : BitVec 2} {reg : BitVec 4} (h : regAt (pageGroup g) reg = .cr) (d : Word) (s : State) :
    WritesCr (writeInstr g reg d) s := by
  obtain ⟨rfl | rfl, rfl⟩ := regAt_eq_cr g reg h
  · exact .inl ⟨d, rfl⟩
  · exact .inr (.inl ⟨d, rfl⟩)

theorem bus8Write_of_clears {a : Nat} {b : Byte} {s : State} {v : VoiceIx} {bit : Nat}
    (h : Clears v bit s (bus8Write a b s)) : WritesCr (.bus8Wb a b) s ∧ v = s.sel := by
  rcases bus8Write_cases a b s with ⟨-, e⟩ | ⟨lane, d, e⟩
  · rw [e] at h
    exact absurd h (not_clears_of_control_eq rfl)
  · rw [e] at h
    have commit : Clears v bit { s with writeLatch := d }
        (writeReg (s.regNow (busReg a)) d { s with writeLatch := d }) := h
    obtain ⟨cr, sel⟩ := writeReg_of_clears commit
    exact ⟨.inr (.inr (.inl ⟨a, b, rfl, lane, cr⟩)), sel⟩

theorem bus16Write_of_clears {off : Nat} {data : Hword} {lanes : BitVec 2} {s : State} {v : VoiceIx} {bit : Nat}
    (h : Clears v bit s (bus16Write off data lanes s)) : WritesCr (.bus16W off data lanes) s ∧ v = s.sel := by
  rcases bus16Write_cases off data lanes s with ⟨-, e⟩ | ⟨l, mapped, e⟩
  · rw [e] at h
    exact absurd h (not_clears_of_control_eq rfl)
  · rw [e] at h
    obtain ⟨cr, sel⟩ := writeReg_of_clears h
    exact ⟨.inr (.inr (.inr ⟨off, data, lanes, l, rfl, mapped, cr⟩)), sel⟩

theorem readReg_not_clears (r : Reg) (s : State) (v : VoiceIx) (bit : Nat) : ¬ Clears v bit s (readReg r s).2 :=
  not_clears_of_control_eq (by rw [readReg_voice])

theorem bus8Read_not_clears (a : Nat) (s : State) (v : VoiceIx) (bit : Nat) : ¬ Clears v bit s (bus8Read a s).2 := by
  rcases bus8Read_cases a s with ⟨-, e⟩ | ⟨-, e⟩ <;> rw [e]
  · exact readReg_not_clears (s.regNow (busReg a)) s v bit
  · exact not_clears_of_control_eq rfl

theorem bus16Read_not_clears (off : Nat) (s : State) (v : VoiceIx) (bit : Nat) :
    ¬ Clears v bit s (bus16Read off s).2 := by
  rcases bus16Read_cases off s with ⟨-, e⟩ | ⟨l, -, e⟩ <;> rw [e]
  · exact not_clears_of_control_eq rfl
  · exact readReg_not_clears _ s v bit

/-- Whatever completes and clears STOP0, STOP1 or LEI wrote CR to the selected voice, or is CONSTRUCT. -/
theorem Completes.of_clears {s t : State} {i : Instr} (h : Completes s i t) {v : VoiceIx} {bit : Nat} (hb : bit < 3)
    (hc : Clears v bit s t) : (WritesCr i s ∧ v = s.sel) ∨ ∃ p, i = .construct p := by
  cases h with
  | write g reg d =>
    obtain ⟨cr, sel⟩ := writeReg_of_clears hc
    exact .inl ⟨writesCr_writeInstr cr d s, sel⟩
  | read g reg => exact absurd hc (readReg_not_clears _ s v bit)
  | generate n => exact absurd hc (generate_not_clears n s v hb)
  | bankW voice value => exact absurd hc (setExBank_not_clears _ value s v bit)
  | bus8Wb a b => exact .inl (bus8Write_of_clears hc)
  | bus8Rb a => exact absurd hc (bus8Read_not_clears a s v bit)
  | bus16W off data lanes => exact .inl (bus16Write_of_clears hc)
  | bus16R off => exact absurd hc (bus16Read_not_clears off s v bit)
  | construct p => exact .inr ⟨p, rfl⟩

/-- Settles O33, operation by operation. -/
theorem stopAndInhibitClearedOnlyByControlWrite : Obligations.StopAndInhibitClearedOnlyByControlWrite := by
  unfold Obligations.StopAndInhibitClearedOnlyByControlWrite
  intro i s t v bit h hb set clear
  exact (completes_of_exec h).of_clears hb ⟨set, clear⟩

end Sys2Proof.Machine
end

section
/-! PROOFS. A voice's batch in a pass is the batch it plays alone (O43, spec/45_mixer.md R223, R226): the buffers do not
reach the voice, and of what the voices before it leave, only the count of free filter values reaches it. -/

namespace Sys2Proof.Machine

/-! ## One batch -/

theorem sample_run (p : Params) (chip : Nat) (path : Path) (r : Run) (slot slot' : Slot) :
    (sample p chip path r slot).1 = (sample p chip path r slot').1 := by
  cases path <;> rfl

/-- A batch leaves the same run whatever the buffers held: only their length counts. -/
theorem playBatch_run (p : Params) (chip : Nat) (path : Path) (r : Run) {slots slots' : List Slot}
    (h : slots.length = slots'.length) : (playBatch p chip path r slots).1 = (playBatch p chip path r slots').1 := by
  induction slots generalizing r slots' with
  | nil => rw [List.eq_nil_of_length_eq_zero h.symm]
  | cons slot slots ih =>
    obtain ⟨slot', slots', rfl⟩ := List.exists_cons_of_length_eq_add_one h.symm
    cases hs : r.voice.stopped with
    | true =>
      rw [playBatch_stopped _ _ _ _ _ hs (by simp), playBatch_stopped _ _ _ _ _ hs (by simp), h]
    | false =>
      rw [playBatch_cons _ _ _ _ _ _ hs, playBatch_cons _ _ _ _ _ _ hs]
      simp only
      rw [sample_run p chip path r slot slot']
      exact ih _ (by simpa using h)

/-- Under wrap a filter call reads no free value (R160). -/
theorem filter_wrap_voice (v : Voice) (x : Int) (draws draws' : Nat) :
    (filter .wrap v x draws).voice = (filter .wrap v x draws').voice := rfl

theorem sample_wrap_voice {p : Params} (hp : p.filterOverflow = .wrap) (chip : Nat) (path : Path) {r r' : Run}
    (h : r.voice = r'.voice) (slot : Slot) :
    (sample p chip path r slot).1.voice = (sample p chip path r' slot).1.voice := by
  cases path with
  | silent => simp only [sample, h]
  | sound law m =>
    simp only [sample, hp, h]
    rw [filter_wrap_voice _ _ r.draws r'.draws]

/-- Under wrap the voice a batch leaves does not depend on how many free values were drawn before. -/
theorem playBatch_wrap_voice {p : Params} (hp : p.filterOverflow = .wrap) (chip : Nat) (path : Path) {r r' : Run}
    (h : r.voice = r'.voice) (slots : List Slot) :
    (playBatch p chip path r slots).1.voice = (playBatch p chip path r' slots).1.voice := by
  induction slots generalizing r r' with
  | nil => exact h
  | cons slot slots ih =>
    cases hs : r.voice.stopped with
    | true =>
      rw [playBatch_stopped _ _ _ r _ hs (by simp), playBatch_stopped _ _ _ r' _ (h ▸ hs) (by simp), h]
    | false =>
      rw [playBatch_cons _ _ _ r _ _ hs, playBatch_cons _ _ _ r' _ _ (h ▸ hs)]
      exact ih (sample_wrap_voice hp chip path h slot)

theorem soloBatch_wrap_voice {s : State} (hp : s.params.filterOverflow = .wrap) (v : VoiceIx) (n draws draws' : Nat) :
    (soloBatch s v n draws).1.voice = (soloBatch s v n draws').1.voice := by
  unfold soloBatch
  apply playBatch_wrap_voice hp
  rfl

/-! ## A batch in its place in the pass -/

/-- A voice's batch in a state that agrees with `s` on the chip and on that voice is its solo batch in `s`. -/
theorem voiceBatch_eq_soloBatch {s u : State} {v : VoiceIx} (hp : u.params = s.params) (hc : u.chips = s.chips)
    (hv : u.voice v = s.voice v) (slots : List Slot) :
    (voiceBatch u v slots).1.voice v = (soloBatch s v slots.length u.filterDraws).1.voice
      ∧ (voiceBatch u v slots).1.filterDraws = (soloBatch s v slots.length u.filterDraws).1.draws := by
  have run := playBatch_run s.params s.chips (pathOf s.params (enterPass s.params.variant.accumMask (s.voice v)))
    ⟨enterPass s.params.variant.accumMask (s.voice v), u.filterDraws⟩
    (slots := slots) (slots' := List.replicate slots.length ⟨0, 0⟩) (by simp)
  constructor
  · rw [voiceBatch_voice_same, hp, hc, hv, run]
    rfl
  · simp only [voiceBatch, hp, hc, hv, run]
    rfl

theorem mixVoices_append (us vs : List VoiceIx) (s : State) (slots : List Slot) :
    mixVoices s slots (us ++ vs) = mixVoices (mixVoices s slots us).1 (mixVoices s slots us).2 vs := by
  induction us generalizing s slots with
  | nil => rfl
  | cons u us ih => exact ih _ _

theorem mixVoices_params (vs : List VoiceIx) (s : State) (slots : List Slot) :
    (mixVoices s slots vs).1.params = s.params := by
  obtain ⟨_, _, e⟩ := mixVoices_frame vs s slots
  rw [e]

theorem mixVoices_chips (vs : List VoiceIx) (s : State) (slots : List Slot) :
    (mixVoices s slots vs).1.chips = s.chips := by
  obtain ⟨_, _, e⟩ := mixVoices_frame vs s slots
  rw [e]

/-- After other voices have been mixed, a voice's batch is its solo batch, going on with the free values they left. -/
theorem voiceBatch_after_mix {vs : List VoiceIx} {v : VoiceIx} (h : v ∉ vs) (s : State) (slots : List Slot) :
    let mixed := mixVoices s slots vs
    let solo := soloBatch s v slots.length mixed.1.filterDraws
    (voiceBatch mixed.1 v mixed.2).1.voice v = solo.1.voice
      ∧ (voiceBatch mixed.1 v mixed.2).1.filterDraws = solo.1.draws := by
  intro mixed solo
  have batch := voiceBatch_eq_soloBatch (mixVoices_params vs s slots) (mixVoices_chips vs s slots)
    (mixVoices_voice_of_not_mem vs s slots h) mixed.2
  rwa [mixVoices_length] at batch

/-! ## The voices in ascending order -/

/-- The first `k` voices in ascending order. -/
def firstVoices (k : Nat) : List VoiceIx := (List.range k).map (BitVec.ofNat 5)

theorem activeVoices_eq (s : State) : s.activeVoices = firstVoices (s.activeVoiceCount.toNat + 1) := rfl

theorem firstVoices_succ (k : Nat) : firstVoices (k + 1) = firstVoices k ++ [BitVec.ofNat 5 k] := by
  rw [firstVoices, List.range_succ, List.map_append]
  rfl

theorem not_mem_firstVoices {k : Nat} (hk : k < 32) : BitVec.ofNat 5 k ∉ firstVoices k := by
  rw [firstVoices, List.mem_map]
  rintro ⟨j, hj, e⟩
  rw [List.mem_range] at hj
  have := congrArg BitVec.toNat e
  rw [BitVec.toNat_ofNat, BitVec.toNat_ofNat, Nat.mod_eq_of_lt (by omega), Nat.mod_eq_of_lt (by omega)] at this
  omega

/-- Voice `k`'s batch with the first `k` voices mixed before it. -/
theorem mixVoices_firstVoices_succ (s : State) (slots : List Slot) (k : Nat) :
    mixVoices s slots (firstVoices (k + 1))
      = voiceBatch (mixVoices s slots (firstVoices k)).1 (BitVec.ofNat 5 k) (mixVoices s slots (firstVoices k)).2 := by
  rw [firstVoices_succ, mixVoices_append]
  rfl

/-- The draws that the first `k` voices of a pass leave are counted by `drawsBefore`. -/
theorem mixVoices_filterDraws (s : State) (n : Nat) {k : Nat} (hk : k ≤ 32) :
    (mixVoices s (List.replicate n ⟨0, 0⟩) (firstVoices k)).1.filterDraws = drawsBefore s n k := by
  induction k with
  | zero => rfl
  | succ k ih =>
    obtain ⟨-, draws⟩ := voiceBatch_after_mix (not_mem_firstVoices hk) s (List.replicate n ⟨0, 0⟩)
    rw [List.length_replicate] at draws
    rw [mixVoices_firstVoices_succ, draws, ih (by omega)]
    rfl

/-- Each of the first `k` voices ends the mix as its solo batch leaves it. -/
theorem mixVoices_voice (s : State) (n : Nat) {k : Nat} (hk : k ≤ 32) {v : VoiceIx} (hv : v.toNat < k) :
    (mixVoices s (List.replicate n ⟨0, 0⟩) (firstVoices k)).1.voice v
      = (soloBatch s v n (drawsBefore s n v.toNat)).1.voice := by
  induction k with
  | zero => omega
  | succ k ih =>
    rw [mixVoices_firstVoices_succ]
    by_cases last : v = BitVec.ofNat 5 k
    · have number : v.toNat = k := by rw [last, BitVec.toNat_ofNat, Nat.mod_eq_of_lt hk]
      obtain ⟨voice, -⟩ := voiceBatch_after_mix (not_mem_firstVoices hk) s (List.replicate n ⟨0, 0⟩)
      rw [List.length_replicate, mixVoices_filterDraws s n (by omega)] at voice
      rw [number, last]
      exact voice
    · have earlier : v.toNat ≠ k := fun e => last (by rw [← e, BitVec.ofNat_toNat, BitVec.setWidth_eq])
      rw [voiceBatch_voice_ne _ _ last]
      exact ih (by omega) (by omega)

/-- Settles O43: the mix leaves each active voice as its solo batch does (`mixVoices_voice`), and the arbiter changes no
more of it than the flag that `clearIrq` hides. -/
theorem voicesPlayIndependently : Obligations.VoicesPlayIndependently := by
  unfold Obligations.VoicesPlayIndependently
  intro n s hn
  refine ⟨generate n s, rfl, fun v hv => ?_⟩
  have mixed : (mixVoices s (List.replicate n ⟨0, 0⟩) s.activeVoices).1.voice v
      = (soloBatch s v n (drawsBefore s n v.toNat)).1.voice := by
    rw [activeVoices_eq]
    exact mixVoices_voice s n s.activeVoiceCount.isLt (by omega)
  have solo : clearIrq ((generate n s).voice v) = clearIrq (soloBatch s v n (drawsBefore s n v.toNat)).1.voice := by
    rw [← mixed]
    rcases generate_voice_cases n s hn v with e | ⟨-, e⟩ <;> rw [e]
    exact clearIrq_clearIrq _
  exact ⟨solo, fun hw draws => by rw [solo, soloBatch_wrap_voice hw v n _ draws]⟩

end Sys2Proof.Machine
end

section
/-! PROOFS. Who changes the interrupt vector (O34, spec/10_state.md R26, spec/60_exceptions.md R324 to R326): a pass
that finds it free and latches an active voice, a read of IRQV, and CONSTRUCT. -/

namespace Sys2Proof.Machine

/-! ## The arbiter's latch -/

/-- The latched voice is read back from the vector (R26). -/
theorem setWidth5_setWidth8 (v : VoiceIx) : (v.setWidth 8).setWidth 5 = v := by
  rw [BitVec.setWidth_setWidth_of_le _ (by decide), BitVec.setWidth_eq]

theorem clearIrq_irq (v : Voice) : (clearIrq v).irq = false := by
  simp [Voice.irq]

/-- A pass that changes the vector found it free and latched an active voice, whose flag it cleared (R324). -/
theorem generate_latches_of_irqVector_ne {n : Nat} {s : State} (h : (generate n s).irqVector ≠ s.irqVector) :
    0 < n ∧ s.irqVector.getLsbD 7 = true
      ∧ ∃ v ∈ s.activeVoices, (generate n s).irqVector = v.setWidth 8 ∧ ((generate n s).voice v).irq = false := by
  rcases Nat.eq_zero_or_pos n with rfl | hn
  · exact absurd rfl h
  · rcases generate_cases n s hn with ⟨-, e⟩ | ⟨v, active, free, -, -, e⟩
    · exact absurd (by rw [e]) h
    · refine ⟨hn, free, v, active, by rw [e], ?_⟩
      rw [e]
      exact (congrArg Voice.irq (State.voice_setVoice_same ..)).trans (clearIrq_irq _)

/-! ## The acknowledging read -/

/-- A register read that changes the vector is the read of IRQV, and frees it (R285). -/
theorem readReg_of_irqVector_ne {r : Reg} {s : State} (h : (readReg r s).2.irqVector ≠ s.irqVector) :
    r = .irqv ∧ (readReg r s).2.irqVector = 0x80 := by
  rw [readReg_irqVector] at h ⊢
  split at h
  next hr => exact ⟨hr, if_pos hr⟩
  next => exact absurd rfl h

/-- The keys of IRQV: register 14 of every group (R93 to R95). -/
theorem regAt_eq_irqv : ∀ (g : BitVec 2) (reg : BitVec 4), regAt (pageGroup g) reg = .irqv → reg = 14 := by
  decide

/-- The read of a key of IRQV is RD.L.IRQV, RD.H.IRQV or RD.T.IRQV. -/
theorem acknowledges_readInstr {g : BitVec 2} {reg : BitVec 4} (h : regAt (pageGroup g) reg = .irqv) (s : State) :
    Acknowledges (readInstr g reg) s := by
  obtain rfl := regAt_eq_irqv g reg h
  have test : ∀ key, Acknowledges (.rdTIrqv key) s := fun key => .inr (.inr (.inl ⟨key, rfl⟩))
  match g with
  | 0 => exact .inl rfl
  | 1 => exact .inr (.inl rfl)
  | 2 => exact test 0
  | 3 => exact test 1

theorem bus8Read_of_irqVector_ne {a : Nat} {s : State} (h : (bus8Read a s).2.irqVector ≠ s.irqVector) :
    Acknowledges (.bus8Rb a) s ∧ (bus8Read a s).2.irqVector = 0x80 := by
  rcases bus8Read_cases a s with ⟨lane, e⟩ | ⟨-, e⟩
  · rw [e] at h ⊢
    obtain ⟨irqv, freed⟩ := readReg_of_irqVector_ne h
    exact ⟨.inr (.inr (.inr (.inl ⟨a, rfl, lane, irqv⟩))), freed⟩
  · exact absurd (by rw [e]) h

theorem bus16Read_of_irqVector_ne {off : Nat} {s : State} (h : (bus16Read off s).2.irqVector ≠ s.irqVector) :
    Acknowledges (.bus16R off) s ∧ (bus16Read off s).2.irqVector = 0x80 := by
  rcases bus16Read_cases off s with ⟨-, e⟩ | ⟨l, mapped, e⟩
  · exact absurd (by rw [e]) h
  · rw [e] at h ⊢
    obtain ⟨irqv, freed⟩ := readReg_of_irqVector_ne h
    exact ⟨.inr (.inr (.inr (.inr ⟨off, l, rfl, mapped, irqv⟩))), freed⟩

/-! ## Writes -/

@[simp] theorem bus8Write_irqVector (a : Nat) (b : Byte) (s : State) : (bus8Write a b s).irqVector = s.irqVector := by
  rcases bus8Write_cases a b s with ⟨-, e⟩ | ⟨-, d, e⟩ <;> rw [e]
  exact writeReg_irqVector _ d _

@[simp] theorem bus16Write_irqVector (off : Nat) (data : Hword) (lanes : BitVec 2) (s : State) :
    (bus16Write off data lanes s).irqVector = s.irqVector := by
  rcases bus16Write_cases off data lanes s with ⟨-, e⟩ | ⟨l, -, e⟩ <;> rw [e]
  exact writeReg_irqVector _ _ s

/-! ## Every operation -/

/-- Settles O34, operation by operation. -/
theorem vectorChangesOnlyByArbiterOrAcknowledge : Obligations.VectorChangesOnlyByArbiterOrAcknowledge := by
  unfold Obligations.VectorChangesOnlyByArbiterOrAcknowledge
  intro i s t h changed
  cases completes_of_exec h with
  | write g reg d => exact absurd (writeReg_irqVector _ d s) changed
  | read g reg =>
    obtain ⟨irqv, freed⟩ := readReg_of_irqVector_ne changed
    exact .inr (.inl ⟨acknowledges_readInstr irqv s, freed⟩)
  | generate n =>
    obtain ⟨hn, free, v, active, latched, cleared⟩ := generate_latches_of_irqVector_ne changed
    refine .inl ⟨n, rfl, hn, free, ?_, ?_⟩
    · rw [latched, BitVec.toNat_setWidth_of_le (by decide)]
      exact (mem_activeVoices s v).mp active
    · rw [latched, setWidth5_setWidth8]
      exact cleared
  | bankW voice value => exact absurd rfl changed
  | bus8Wb a b => exact absurd (bus8Write_irqVector a b s) changed
  | bus8Rb a => exact .inr (.inl (bus8Read_of_irqVector_ne changed))
  | bus16W off data lanes => exact absurd (bus16Write_irqVector off data lanes s) changed
  | bus16R off => exact .inr (.inl (bus16Read_of_irqVector_ne changed))
  | construct p => exact .inr (.inr ⟨p, rfl⟩)

end Sys2Proof.Machine
end

section
/-! PROOFS. Supplied waveform memory is read back (O55, spec/20_memory.md R71, R72, R74): a byte is found at its own
address (`memByte_byteCell_append`), so a word list's first word at the first address and the rest after it. -/

namespace Sys2Proof.Machine

/-! ## Bytes -/

theorem address_of_mem_byteCell {n : Nat} {b : Byte} {c : Host.Cell} (h : c ∈ byteCell n b) : c.1 = n := by
  unfold byteCell at h
  split at h
  · cases h
  · rw [List.mem_singleton.mp h]

theorem find?_address_eq_none {n : Nat} {cells : List Host.Cell} (h : ∀ c ∈ cells, c.1 ≠ n) :
    cells.find? (fun c => c.1 == n) = none := by
  simpa using h

theorem memByte_of_unlisted {len n : Nat} {cells : List Host.Cell} (h : ∀ c ∈ cells, c.1 ≠ n) :
    memByte ⟨len, cells⟩ n = 0 := by
  simp only [memByte, find?_address_eq_none h]

/-- The cells before a byte's own do not reach it. -/
theorem memByte_append_of_unlisted {len n : Nat} {cells : List Host.Cell} (h : ∀ c ∈ cells, c.1 ≠ n)
    (rest : List Host.Cell) : memByte ⟨len, cells ++ rest⟩ n = memByte ⟨len, rest⟩ n := by
  simp only [memByte, List.find?_append, find?_address_eq_none h, Option.none_or]

theorem memByte_byteCell_append_of_ne {len m n : Nat} (h : m ≠ n) (b : Byte) (rest : List Host.Cell) :
    memByte ⟨len, byteCell m b ++ rest⟩ n = memByte ⟨len, rest⟩ n :=
  memByte_append_of_unlisted (fun _ hc e => h ((address_of_mem_byteCell hc).symm.trans e)) rest

/-- A byte's own cell gives it back; a byte without one is 0 (log 9). -/
theorem memByte_byteCell_append {len n : Nat} (b : Byte) {rest : List Host.Cell} (h : ∀ c ∈ rest, c.1 ≠ n) :
    memByte ⟨len, byteCell n b ++ rest⟩ n = b := by
  by_cases hb : b = 0
  · rw [byteCell, if_pos hb, List.nil_append, memByte_of_unlisted h, hb]
  · rw [byteCell, if_neg hb]
    simp [memByte]

/-! ## Words -/

/-- A word is its high byte, then its low byte (R74). -/
theorem hword_of_bytes (w : Hword) : w.extractLsb' 8 8 ++ w.extractLsb' 0 8 = w :=
  (BitVec.extractLsb'_append_extractLsb'_eq_extractLsb' (by decide)).trans BitVec.extractLsb'_eq_self

theorem memWord_cellsFrom_head (len b : Nat) (w : Hword) (ws : List Hword) :
    memWord ⟨len, cellsFrom b (w :: ws)⟩ b = w := by
  have later : ∀ c ∈ cellsFrom (b + 1) ws, 2 * b + 1 < c.1 := fun c hc => by
    have := (cellsFrom_bounds ws (b + 1) c hc).1
    omega
  have afterHigh : ∀ c ∈ byteCell (2 * b + 1) (w.extractLsb' 0 8) ++ cellsFrom (b + 1) ws, c.1 ≠ 2 * b := by
    intro c hc
    rcases List.mem_append.mp hc with hc | hc
    · rw [address_of_mem_byteCell hc]
      omega
    · have := later c hc
      omega
  have high : memByte ⟨len, cellsFrom b (w :: ws)⟩ (2 * b) = w.extractLsb' 8 8 := by
    rw [cellsFrom, List.append_assoc, memByte_byteCell_append _ afterHigh]
  have low : memByte ⟨len, cellsFrom b (w :: ws)⟩ (2 * b + 1) = w.extractLsb' 0 8 := by
    rw [cellsFrom, List.append_assoc, memByte_byteCell_append_of_ne (by omega),
      memByte_byteCell_append _ fun c hc => (later c hc).ne']
  rw [memWord, high, low, hword_of_bytes]

theorem memWord_cellsFrom_tail (len : Nat) {a b : Nat} (h : b < a) (w : Hword) (ws : List Hword) :
    memWord ⟨len, cellsFrom b (w :: ws)⟩ a = memWord ⟨len, cellsFrom (b + 1) ws⟩ a := by
  have byte : ∀ n, 2 * b + 1 < n →
      memByte ⟨len, cellsFrom b (w :: ws)⟩ n = memByte ⟨len, cellsFrom (b + 1) ws⟩ n := fun n hn => by
    rw [cellsFrom, List.append_assoc, memByte_byteCell_append_of_ne (by omega),
      memByte_byteCell_append_of_ne (by omega)]
  rw [memWord, memWord, byte (2 * a) (by omega), byte (2 * a + 1) (by omega)]

/-- Of words stored from word address `b` on, the one at place `i` is read at `b + i`. -/
theorem memWord_cellsFrom (len : Nat) (ws : List Hword) (b i : Nat) (h : i < ws.length) :
    memWord ⟨len, cellsFrom b ws⟩ (b + i) = ws[i] := by
  induction ws generalizing b i with
  | nil => cases h
  | cons w ws ih =>
    cases i with
    | zero => exact memWord_cellsFrom_head len b w ws
    | succ i =>
      have place : b + (i + 1) = b + 1 + i := by omega
      rw [memWord_cellsFrom_tail len (by omega), place]
      exact ih (b + 1) i (Nat.lt_of_succ_lt_succ h)

/-- Settles O55: below the extent MemRead is the host's word, and the words stand from address 0 on. -/
theorem suppliedWordsAreRead : Obligations.SuppliedWordsAreRead := by
  unfold Obligations.SuppliedWordsAreRead
  intro ws a chip r h
  have word : memWord (memOfWords ws) a = ws[a] := by
    simpa [memOfWords] using memWord_cellsFrom ws.length ws 0 a h
  rw [memRead, if_pos (show a < (memOfWords ws).len from h), word]

end Sys2Proof.Machine
end

section
/-! PROOFS. Which operation a step runs (O4, spec/20_memory.md R82, spec/30_encoding.md R92): one equation of `step`
per state of the queue. -/

namespace Sys2Proof.Machine

/-- With no frame waiting nothing changes (R338, R354). -/
theorem step_of_idle {s : State} (h : s.hostOps = []) : step s = .next s := by
  have empty : nextFrame s = none := by simp only [nextFrame, h]
  simp only [step, empty]

section
variable {s : State} {frame : List Byte} {rest : List (List Byte)} (h : s.hostOps = frame :: rest)
include h

theorem nextFrame_of_waiting : nextFrame s = some (frame, { s with hostOps := rest }) := by
  simp only [nextFrame, h]

/-- The frame is decoded in the group of the page as it stands, and its operation finds the frame taken off (R92). -/
theorem step_of_decoded {i : Instr} (hd : decodeNow s frame = .ok i) : step s = exec i { s with hostOps := rest } := by
  simp only [step, nextFrame_of_waiting h, hd]

theorem step_of_badFrame {e : DecodeError} (hd : decodeNow s frame = .error e) : step s = .refused (.badFrame e) := by
  simp only [step, nextFrame_of_waiting h, hd]

end

/-- Settles O4: a frame that decodes, a frame that does not, and an empty queue. -/
theorem stepRunsDecodedOperation : Obligations.StepRunsDecodedOperation := by
  unfold Obligations.StepRunsDecodedOperation
  exact ⟨fun _ _ _ _ waiting decoded => step_of_decoded waiting decoded,
    fun _ _ _ _ waiting bad => step_of_badFrame waiting bad, fun _ => step_of_idle⟩

end Sys2Proof.Machine
end

section
/-! PROOFS. The round trips of a frame (O1, O2, spec/30_encoding.md R91, R92, R106, R107): the operands of a CALL
operation are read back and were written so, and `decode` says once per kind of key what a frame stands for. -/

namespace Sys2Proof

/-! ## The operands of a CALL operation -/

/-- Lane masks are written in the low two bits of a byte. -/
theorem lanes_byte : ∀ lanes : BitVec 2,
    (lanes.setWidth 8 : Byte).extractLsb' 2 6 = 0 ∧ (lanes.setWidth 8 : Byte).extractLsb' 0 2 = lanes := by
  decide

theorem lanes_byte_of_field : ∀ b : Byte, b.extractLsb' 2 6 = 0 → (b.extractLsb' 0 2).setWidth 8 = b := by
  decide

/-- Reading the operands of a well-formed CALL operation back. -/
theorem getCall_operandBytes {i : Instr} {code : BitVec 3} (hk : keyOf i = .call code) (hw : i.wf = true)
    (rest : List Byte) : getCall code.toNat (operandBytes i ++ rest) = some (i, rest) := by
  cases i with
  | generate n =>
    cases hk
    exact bind_of_eq (getNat_putNat n rest)
  | bankW voice value =>
    cases hk
    rw [operandBytes, List.append_assoc]
    exact (bind_of_eq (getNat_putNat voice _)).trans (bind_of_eq (getWord_putWord value rest))
  | bus8Wb a b =>
    cases hk
    rw [operandBytes, List.append_assoc]
    exact (bind_of_eq (getNat_putNat a _)).trans (bind_of_eq (getByte_putByte b rest))
  | bus8Rb a =>
    cases hk
    exact bind_of_eq (getNat_putNat a rest)
  | bus16W off data lanes =>
    cases hk
    obtain ⟨zero, field⟩ := lanes_byte lanes
    rw [operandBytes, List.append_assoc, List.append_assoc]
    refine (bind_of_eq (getNat_putNat off _)).trans ?_
    refine (bind_of_eq (getHword_putHword data _)).trans ?_
    refine (bind_of_eq (getByte_putByte _ rest)).trans ?_
    exact (if_pos zero).trans (by rw [field]; rfl)
  | bus16R off =>
    cases hk
    exact bind_of_eq (getNat_putNat off rest)
  | construct p =>
    cases hk
    exact bind_of_eq (getParams_putParams p rest hw)
  | callRsv =>
    cases hk
    rfl
  | _ => cases hk

/-- What a CALL code's reader reads is an operation of that code, and was written so. -/
theorem operandBytes_of_getCall {code : Nat} (hc : code < 8) {bytes rest : List Byte} {i : Instr}
    (h : getCall code bytes = some (i, rest)) :
    keyOf i = .call (BitVec.ofNat 3 code) ∧ bytes = operandBytes i ++ rest := by
  match code, h with
  | 0, h | 3, h | 5, h =>
    obtain ⟨_, hn, h⟩ := of_bind_eq h
    cases h
    exact ⟨rfl, putNat_of_getNat hn⟩
  | 1, h =>
    obtain ⟨_, hn, h⟩ := of_bind_eq h
    obtain ⟨_, hv, h⟩ := of_bind_eq h
    cases h
    exact ⟨rfl, by rw [putNat_of_getNat hn, putWord_of_getWord hv, operandBytes, List.append_assoc]⟩
  | 2, h =>
    obtain ⟨_, hn, h⟩ := of_bind_eq h
    obtain ⟨_, hb, h⟩ := of_bind_eq h
    cases h
    exact ⟨rfl, by rw [putNat_of_getNat hn, putByte_of_getByte hb, operandBytes, List.append_assoc]⟩
  | 4, h =>
    obtain ⟨_, hn, h⟩ := of_bind_eq h
    obtain ⟨_, hd, h⟩ := of_bind_eq h
    obtain ⟨⟨lanes, _⟩, hl, h⟩ := of_bind_eq h
    obtain ⟨zero, h⟩ := Option.ite_none_right_eq_some.mp h
    cases h
    refine ⟨rfl, ?_⟩
    rw [putNat_of_getNat hn, putHword_of_getHword hd, putByte_of_getByte hl, operandBytes,
      lanes_byte_of_field lanes zero, List.append_assoc, List.append_assoc]
  | 6, h =>
    obtain ⟨_, hp, h⟩ := of_bind_eq h
    cases h
    exact ⟨rfl, (putParams_of_getParams hp).2⟩
  | 7, h =>
    cases h
    exact ⟨rfl, rfl⟩

/-! ## What a frame stands for, by the key in its first byte -/

theorem decode_callByte (g : BitVec 2) (code : BitVec 3) (operands : List Byte) :
    decode g (keyByte (.call code) :: operands) = wholeFrame (getCall code.toNat operands) := by
  obtain ⟨call, zero, field⟩ := keyByte_call code
  rw [decode, if_pos call, if_pos zero, field]

theorem decode_writeByte (g g' : BitVec 2) (reg : BitVec 4) (operands : List Byte) :
    decode g (keyByte (.reg 1 g' reg) :: operands)
      = wholeFrame ((getWord operands).map fun r => (writeInstr g reg r.1, r.2)) := by
  obtain ⟨call, zero, write, field⟩ := keyByte_reg 1 g' reg
  rw [decode, call, write, field, zero, Option.map_eq_bind]
  rfl

theorem decode_readByte (g g' : BitVec 2) (reg : BitVec 4) (operands : List Byte) :
    decode g (keyByte (.reg 0 g' reg) :: operands) = wholeFrame (some (readInstr g reg, operands)) := by
  obtain ⟨call, zero, write, field⟩ := keyByte_reg 0 g' reg
  rw [decode, call, write, field, zero]
  rfl

/-- A frame that decodes begins with a CALL code or a register key. -/
theorem keyByte_of_decode {g : BitVec 2} {b : Byte} {operands : List Byte} {i : Instr}
    (h : decode g (b :: operands) = .ok i) :
    (∃ code, b = keyByte (.call code)) ∨ (∃ w reg, b = keyByte (.reg w g reg)) := by
  rw [decode] at h
  by_cases call : b.getLsbD 7 = true
  · rw [if_pos call] at h
    by_cases zero : b.extractLsb' 3 4 = 0
    · exact .inl ⟨_, (keyByte_of_callByte b call zero).symm⟩
    · rw [if_neg zero] at h
      cases h
  · rw [if_neg call] at h
    by_cases zero : b.extractLsb' 4 2 = 0
    · exact .inr ⟨_, _, (keyByte_of_regByte b (Bool.eq_false_iff.mpr call) zero g).symm⟩
    · rw [if_pos zero] at h
      cases h

/-! ## The frame of a register operation -/

theorem encode_writeInstr (g : BitVec 2) (reg : BitVec 4) (d : Word) :
    encode (writeInstr g reg d) = keyByte (.reg 1 g reg) :: putWord d := by
  rw [encode, writeInstr_key, writeInstr_operands]

theorem encode_readInstr (g : BitVec 2) (reg : BitVec 4) :
    encode (readInstr g reg) = [keyByte (.reg 0 g reg)] := by
  rw [encode, readInstr_key, readInstr_operands]

theorem reachedIn_writeInstr (g g' : BitVec 2) (reg : BitVec 4) (d : Word) :
    reachedIn g (writeInstr g' reg d) = true ↔ g' = g := by
  rw [reachedIn, writeInstr_key, beq_iff_eq]

theorem reachedIn_readInstr (g g' : BitVec 2) (reg : BitVec 4) :
    reachedIn g (readInstr g' reg) = true ↔ g' = g := by
  rw [reachedIn, readInstr_key, beq_iff_eq]

/-! ## The two round trips -/

/-- Settles O1: a register operation is the one of its key in its group, a CALL operation is read by its code's
reader. -/
theorem decodeOfEncode : Obligations.DecodeOfEncode := by
  unfold Obligations.DecodeOfEncode
  intro g i hw hr
  rcases instr_shape i with ⟨g', reg, d, rfl⟩ | ⟨g', reg, rfl⟩ | ⟨code, hk⟩
  · obtain rfl := (reachedIn_writeInstr g g' reg d).mp hr
    have word : getWord (putWord d) = some (d, []) := getWord_putWord d []
    rw [encode_writeInstr, decode_writeByte, word]
    rfl
  · obtain rfl := (reachedIn_readInstr g g' reg).mp hr
    rw [encode_readInstr, decode_readByte]
    rfl
  · have operands := getCall_operandBytes hk hw []
    rw [List.append_nil] at operands
    rw [encode, hk, decode_callByte, operands]
    rfl

/-- Settles O2: the first byte is the one of its key, and each reader reads only what its writer wrote. -/
theorem encodeOfDecode : Obligations.EncodeOfDecode := by
  unfold Obligations.EncodeOfDecode
  intro g frame i h
  refine ⟨decode_wf h, ?_⟩
  cases frame with
  | nil => cases h
  | cons b operands =>
    rcases keyByte_of_decode h with ⟨code, rfl⟩ | ⟨w, reg, rfl⟩
    · rw [decode_callByte] at h
      obtain ⟨key, bytes⟩ := operandBytes_of_getCall code.isLt (wholeFrame_ok h)
      rw [BitVec.ofNat_toNat, BitVec.setWidth_eq] at key
      rw [reachedIn, encode, key, bytes, List.append_nil]
      exact ⟨rfl, rfl⟩
    · match w with
      | 1 =>
        rw [decode_writeByte] at h
        obtain ⟨⟨d, rest⟩, word, e⟩ := Option.map_eq_some_iff.mp (wholeFrame_ok h)
        cases e
        rw [reachedIn_writeInstr, encode_writeInstr, putWord_of_getWord word, List.append_nil]
        exact ⟨rfl, rfl⟩
      | 0 =>
        rw [decode_readByte] at h
        cases wholeFrame_ok h
        rw [reachedIn_readInstr, encode_readInstr]
        exact ⟨rfl, rfl⟩

end Sys2Proof
end

section
/-! PROOFS. Which operations are refused (O5, spec/30_encoding.md R102, R109): `Refuses` is to a refusal of `exec` what
`Completes` is to a completion, and with no fault there is no third outcome (R320). -/

namespace Sys2Proof.Machine

theorem exec_of_refuses {i : Instr} {s : State} {r : Refusal} (h : Refuses i s r) : exec i s = .refused r := by
  cases h with
  | reservedCall => rfl
  | bankW voice value _ hv => simp only [exec, execBankW, if_neg (Nat.not_le_of_lt hv)]
  | bus8Wb a b _ hv => simp only [exec, execBus8Wb, hv]
  | bus8Rb a _ hv => simp only [exec, execBus8Rb, hv]
  | bus16W off data lanes _ hv => simp only [exec, execBus16W, hv]
  | bus16R off _ hv => simp only [exec, execBus16R, hv]

/-- Every operation completes or is refused. -/
theorem completes_or_refuses (i : Instr) (s : State) : (∃ t, Completes s i t) ∨ ∃ r, Refuses i s r := by
  rcases instr_shape i with ⟨g, reg, d, rfl⟩ | ⟨g, reg, rfl⟩ | ⟨code, hcode⟩
  · exact .inl ⟨_, .write g reg d⟩
  · exact .inl ⟨_, .read g reg⟩
  · cases i with
    | generate n => exact .inl ⟨_, .generate n⟩
    | construct p => exact .inl ⟨_, .construct p⟩
    | callRsv => exact .inr ⟨_, .reservedCall s⟩
    | bankW voice value =>
      rcases Nat.lt_or_ge 31 voice with hv | hv
      · exact .inr ⟨_, .bankW voice value s hv⟩
      · exact .inl ⟨_, .bankW voice value hv⟩
    | bus8Wb a b =>
      cases hv : s.params.variant with
      | es5506 => exact .inl ⟨_, .bus8Wb a b hv⟩
      | es5505 => exact .inr ⟨_, .bus8Wb a b s hv⟩
    | bus8Rb a =>
      cases hv : s.params.variant with
      | es5506 => exact .inl ⟨_, .bus8Rb a hv⟩
      | es5505 => exact .inr ⟨_, .bus8Rb a s hv⟩
    | bus16W off data lanes =>
      cases hv : s.params.variant with
      | es5505 => exact .inl ⟨_, .bus16W off data lanes hv⟩
      | es5506 => exact .inr ⟨_, .bus16W off data lanes s hv⟩
    | bus16R off =>
      cases hv : s.params.variant with
      | es5505 => exact .inl ⟨_, .bus16R off hv⟩
      | es5506 => exact .inr ⟨_, .bus16R off s hv⟩
    | _ => cases hcode

theorem exec_eq_refused_iff (i : Instr) (s : State) (r : Refusal) : exec i s = .refused r ↔ Refuses i s r := by
  refine ⟨fun h => ?_, exec_of_refuses⟩
  rcases completes_or_refuses i s with ⟨t, ht⟩ | ⟨r', hr⟩
  · rw [exec_of_completes ht] at h
    cases h
  · rw [exec_of_refuses hr] at h
    cases h
    exact hr

/-- Settles O5: what is not refused completes, by `completes_or_refuses`. -/
theorem refusedExactlyElseCompletes : Obligations.RefusedExactlyElseCompletes := by
  unfold Obligations.RefusedExactlyElseCompletes
  refine ⟨exec_eq_refused_iff, fun i s accepted => ?_, fun s => rfl, fun s => rfl⟩
  rcases completes_or_refuses i s with ⟨t, ht⟩ | ⟨r, hr⟩
  · exact ⟨t, exec_of_completes ht⟩
  · exact absurd hr (accepted r)

end Sys2Proof.Machine
end

section
/-! PROOFS. Whose voice an operation may write (O28, spec/30_encoding.md R92): a register write reaches the selected
voice only, directly or through a bus. -/

namespace Sys2Proof.Machine

theorem bus8Write_voice_ne (a : Nat) (b : Byte) (s : State) {w : VoiceIx} (h : w ≠ s.sel) :
    (bus8Write a b s).voice w = s.voice w := by
  rcases bus8Write_cases a b s with ⟨-, e⟩ | ⟨-, d, e⟩ <;> rw [e]
  · rfl
  · exact writeReg_voice_ne (s.regNow (busReg a)) d { s with writeLatch := d } h

theorem bus8Read_voice (a : Nat) (s : State) (w : VoiceIx) : (bus8Read a s).2.voice w = s.voice w := by
  rcases bus8Read_cases a s with ⟨-, e⟩ | ⟨-, e⟩ <;> rw [e]
  exact readReg_voice (s.regNow (busReg a)) s w

theorem bus16Write_voice_ne (off : Nat) (data : Hword) (lanes : BitVec 2) (s : State) {w : VoiceIx} (h : w ≠ s.sel) :
    (bus16Write off data lanes s).voice w = s.voice w := by
  rcases bus16Write_cases off data lanes s with ⟨-, e⟩ | ⟨l, -, e⟩ <;> rw [e]
  exact writeReg_voice_ne _ _ s h

theorem bus16Read_voice (off : Nat) (s : State) (w : VoiceIx) : (bus16Read off s).2.voice w = s.voice w := by
  rcases bus16Read_cases off s with ⟨-, e⟩ | ⟨l, -, e⟩ <;> rw [e]
  exact readReg_voice _ s w

/-- Settles O28, operation by operation. -/
theorem onlyNamedVoiceIsWritten : Obligations.OnlyNamedVoiceIsWritten := by
  unfold Obligations.OnlyNamedVoiceIsWritten
  constructor
  · intro i s t w h notGenerate notConstruct notBankW unselected
    cases completes_of_exec h with
    | write g reg d => exact writeReg_voice_ne _ d s unselected
    | read g reg => exact readReg_voice _ s w
    | generate n => exact absurd rfl (notGenerate n)
    | bankW voice value => exact absurd rfl (notBankW voice value)
    | bus8Wb a b => exact bus8Write_voice_ne a b s unselected
    | bus8Rb a => exact bus8Read_voice a s w
    | bus16W off data lanes => exact bus16Write_voice_ne off data lanes s unselected
    | bus16R off => exact bus16Read_voice off s w
    | construct p => exact absurd rfl (notConstruct p)
  · intro voice value s t w h unnamed
    rcases Nat.lt_or_ge 31 voice with hv | hv
    · rw [exec_of_refuses (.bankW voice value s hv)] at h
      cases h
    · rw [exec_of_completes (.bankW voice value hv)] at h
      cases h
      exact State.voice_setVoice_ne s _ unnamed

end Sys2Proof.Machine
end

section
/-! PROOFS. A write read back (O19, spec/30_encoding.md R96, R97, R99): the read gives the stored field of the data
word, which is the word itself when no bit lies outside the field. -/

namespace Sys2Proof.Machine

/-! ## Fields that are the whole word -/

theorem and_eq_self_iff {n : Nat} (x m : BitVec n) : x &&& m = x ↔ x &&& ~~~m = 0 := by
  constructor
  · intro h
    rw [← h, and_not_and_self]
  · intro h
    have split : x &&& m ||| x &&& ~~~m = x := by
      ext i hi
      cases hm : m[i] <;> simp [hm]
    rwa [show x &&& ~~~m = 0#n from h, BitVec.or_zero] at split

theorem lowField_toNat (d : Word) : (lowField d).toNat = d.toNat % 65536 := by
  rw [lowField, BitVec.extractLsb'_toNat, Nat.shiftRight_zero]

theorem lowField_setWidth_eq_iff (d : Word) : (lowField d).setWidth 32 = d ↔ d.toNat < 65536 := by
  rw [← BitVec.toNat_inj, BitVec.toNat_setWidth_of_le (by decide), lowField_toNat]
  omega

theorem lowField_setWidth (x : Hword) : lowField (x.setWidth 32) = x := by
  rw [← BitVec.toNat_inj, lowField_toNat, BitVec.toNat_setWidth_of_le (by decide)]
  exact Nat.mod_eq_of_lt x.isLt

/-- Forcing LEI to 0 changes nothing of a data word with bit 2 clear. -/
theorem crField_eq_lowField_iff (d : Word) : crField d = lowField d ↔ d.getLsbD 2 = false := by
  have lei : (~~~0xFFFB : Hword) = BitVec.twoPow 16 2 := by decide
  have bit : (d.extractLsb' 0 16).getLsbD 2 = d.getLsbD 2 := by simp
  rw [crField, lowField, and_eq_self_iff, lei, BitVec.and_twoPow, bit]
  cases d.getLsbD 2 <;> decide

theorem crField_setWidth_eq_iff (d : Word) :
    (crField d).setWidth 32 = d ↔ d.getLsbD 2 = false ∧ d.toNat < 65536 := by
  constructor
  · intro h
    have same : lowField d = crField d := by rw [← lowField_setWidth (crField d), h]
    exact ⟨(crField_eq_lowField_iff d).mp same.symm, (lowField_setWidth_eq_iff d).mp (same ▸ h)⟩
  · rintro ⟨lei, small⟩
    rw [(crField_eq_lowField_iff d).mpr lei, lowField_setWidth_eq_iff]
    exact small

/-! ## What a read gives after a write -/

theorem State.selVoice_updSel (s : State) (f : Voice → Voice) : (s.updSel f).selVoice = f s.selVoice :=
  State.voice_setVoice_same s s.sel (f s.selVoice)

theorem loadCr_storeCr (d : Word) (s : State) : loadCr (storeCr d s) = (crField d).setWidth 32 := by
  rw [loadCr, storeCr, State.selVoice_updSel]

theorem loadFc_storeFc (d : Word) (s : State) : loadFc (storeFc d s) = d &&& s.params.fcMask := by
  rw [loadFc, storeFc, State.selVoice_updSel]

theorem loadStart_storeStart (d : Word) (s : State) : loadStart (storeStart d s) = d &&& s.params.startMask := by
  rw [loadStart, storeStart, State.selVoice_updSel]

theorem loadEnd_storeEnd (d : Word) (s : State) : loadEnd (storeEnd d s) = d &&& s.params.endMask := by
  rw [loadEnd, storeEnd, State.selVoice_updSel]

theorem loadLvol_storeLvol (d : Word) (s : State) : loadLvol (storeLvol d s) = (lowField d).setWidth 32 := by
  rw [loadLvol, storeLvol, State.selVoice_updSel]

theorem loadRvol_storeRvol (d : Word) (s : State) : loadRvol (storeRvol d s) = (lowField d).setWidth 32 := by
  rw [loadRvol, storeRvol, State.selVoice_updSel]

theorem loadK1_storeK1 (d : Word) (s : State) : loadK1 (storeK1 d s) = (lowField d).setWidth 32 := by
  rw [loadK1, storeK1, State.selVoice_updSel]

theorem loadK2_storeK2 (d : Word) (s : State) : loadK2 (storeK2 d s) = (lowField d).setWidth 32 := by
  rw [loadK2, storeK2, State.selVoice_updSel]

theorem loadAccum_storeAccum (d : Word) (s : State) : loadAccum (storeAccum d s) = d := by
  rw [loadAccum, storeAccum, State.selVoice_updSel]

/-- A read that returns `x` after the write reads back `x` and nothing else. -/
theorem readsBack_iff {w r : Instr} {s t : State} {x : Word} (hw : exec w s = .next t)
    (hr : exec r t = .next (returned (x, t))) (d : Word) : ReadsBack w r s d ↔ x = d := by
  have last : (returned (x, t)).trace.getLast? = some (.readValue x) := by simp [returned]
  constructor
  · rintro ⟨t', u, hw', hr', h⟩
    rw [hw] at hw'
    cases hw'
    rw [hr] at hr'
    cases hr'
    rw [last] at h
    cases h
    rfl
  · rintro rfl
    exact ⟨t, _, hw, hr, last⟩

/-- Settles O19: each read gives the stored field (`load…_store…`), and the field is compared with the data word. -/
theorem registerRoundTrip : Obligations.RegisterRoundTrip := by
  unfold Obligations.RegisterRoundTrip
  intro d s
  refine ⟨?_, ?_, ?_, ?_, ?_, ?_, ?_, ?_, ?_, ?_⟩ <;> rw [readsBack_iff rfl rfl]
  · rw [loadCr_storeCr, crField_setWidth_eq_iff]
  · rw [loadCr_storeCr, crField_setWidth_eq_iff]
  · rw [loadFc_storeFc, and_eq_self_iff]
  · rw [loadStart_storeStart, and_eq_self_iff]
  · rw [loadEnd_storeEnd, and_eq_self_iff]
  · rw [loadLvol_storeLvol, lowField_setWidth_eq_iff]
  · rw [loadRvol_storeRvol, lowField_setWidth_eq_iff]
  · rw [loadK1_storeK1, lowField_setWidth_eq_iff]
  · rw [loadK2_storeK2, lowField_setWidth_eq_iff]
  · exact loadAccum_storeAccum d s

end Sys2Proof.Machine
end

section
/-! PROOFS. Four byte writes are one register write (O24, spec/30_encoding.md R100, R112, spec/47_register_bus.md R300):
each replaces its own byte of the write latch, so the fourth commits the whole word. -/

namespace Sys2Proof.Machine

/-! ## One byte of the latch -/

theorem byteMask_getLsbD (i : Nat) : (0xFF : Word).getLsbD i = decide (i < 8) := by
  rw [show (0xFF : Word) = BitVec.ofNat 32 (2 ^ 8 - 1) from rfl, BitVec.getLsbD_ofNat, Nat.testBit_two_pow_sub_one]
  by_cases h : i < 8
  · simp [h, show i < 32 by omega]
  · simp [h]

/-- A bit of the latch comes from the byte that is written when it lies in the lane, else from the latch as it was. -/
theorem latchByte_getLsbD (latch : Word) (lane : BitVec 2) (b : Byte) {i : Nat} (hi : i < 32) :
    (latchByte latch lane b).getLsbD i
      = if laneShift lane ≤ i ∧ i < laneShift lane + 8 then b.getLsbD (i - laneShift lane)
        else latch.getLsbD i := by
  simp only [latchByte, BitVec.getLsbD_or, BitVec.getLsbD_and, BitVec.getLsbD_not, BitVec.getLsbD_shiftLeft,
    BitVec.getLsbD_setWidth, byteMask_getLsbD, hi, decide_true, Bool.true_and]
  generalize laneShift lane = shift
  by_cases below : i < shift
  · rw [if_neg (by omega)]
    simp [below]
  · by_cases inside : i - shift < 8
    · rw [if_pos (by omega)]
      simp [below, inside, show i - shift < 32 by omega]
    · rw [if_neg (by omega), BitVec.getLsbD_of_ge b _ (by omega)]
      simp [inside]

/-- A byte write replaces its own lane's byte of the latch and keeps the other three. -/
theorem latchByte_lane (latch : Word) (lane k : BitVec 2) (b : Byte) :
    (latchByte latch lane b).extractLsb' (laneShift k) 8
      = if k = lane then b else latch.extractLsb' (laneShift k) 8 := by
  have hk := k.isLt
  have hl := lane.isLt
  ext i hi
  rw [BitVec.getElem_extractLsb', latchByte_getLsbD _ _ _ (by rw [laneShift]; omega)]
  by_cases same : k = lane
  · subst same
    rw [if_pos (by omega), if_pos rfl, Nat.add_sub_cancel_left, BitVec.getLsbD_eq_getElem hi]
  · have apart : k.toNat ≠ lane.toNat := fun e => same (BitVec.eq_of_toNat_eq e)
    rw [if_neg (by rw [laneShift, laneShift]; omega), if_neg same, BitVec.getElem_extractLsb']

/-- A register word is its four lanes (R75). -/
theorem word_eq_of_lanes {x y : Word}
    (h : ∀ k : BitVec 2, x.extractLsb' (laneShift k) 8 = y.extractLsb' (laneShift k) 8) : x = y := by
  have h0 : x.extractLsb' 24 8 = y.extractLsb' 24 8 := h 0
  have h1 : x.extractLsb' 16 8 = y.extractLsb' 16 8 := h 1
  have h2 : x.extractLsb' 8 8 = y.extractLsb' 8 8 := h 2
  have h3 : x.extractLsb' 0 8 = y.extractLsb' 0 8 := h 3
  rw [← word_of_bytes x, h0, h1, h2, h3, word_of_bytes]

/-- Once each lane is written the latch is the whole word, whatever it held. -/
theorem latchByte_four (latch d : Word) :
    latchByte (latchByte (latchByte (latchByte latch 0 (d.extractLsb' 24 8)) 1 (d.extractLsb' 16 8)) 2
      (d.extractLsb' 8 8)) 3 (d.extractLsb' 0 8) = d := by
  apply word_eq_of_lanes
  intro k
  rw [latchByte_lane, latchByte_lane, latchByte_lane, latchByte_lane]
  match k with
  | 0 | 1 | 2 | 3 => rfl

/-! ## One byte write -/

/-- The addresses of a register's four bytes (R100). -/
theorem busLane_busReg_address : ∀ (reg : BitVec 4) (lane : BitVec 2),
    busLane (4 * reg.toNat + lane.toNat) = lane ∧ busReg (4 * reg.toNat + lane.toNat) = reg := by
  decide

theorem regWrite_withLatch (reg : BitVec 4) (d l : Word) (s : State) :
    regWrite reg d { s with writeLatch := l } = { regWrite reg d s with writeLatch := l } :=
  writeReg_withLatch (s.regNow reg) d l s

section
variable {s : State} (hv : s.params.variant = .es5506) (reg : BitVec 4)
include hv

theorem exec_bus8Wb_latches {lane : BitVec 2} (h : lane ≠ 3) (b : Byte) :
    exec (.bus8Wb (4 * reg.toNat + lane.toNat) b) s
      = .next { s with writeLatch := latchByte s.writeLatch lane b } := by
  obtain ⟨hl, -⟩ := busLane_busReg_address reg lane
  rw [exec_of_completes (.bus8Wb _ b hv), bus8Write, hl, if_neg h]

/-- The lane-3 byte commits the latch, which the register write neither reads nor writes. -/
theorem exec_bus8Wb_commits (b : Byte) :
    exec (.bus8Wb (4 * reg.toNat + 3) b) s
      = .next { regWrite reg (latchByte s.writeLatch 3 b) s with writeLatch := 0 } := by
  obtain ⟨hl, hr⟩ := busLane_busReg_address reg 3
  have commit : bus8Write (4 * reg.toNat + 3) b s
      = { regWrite reg (latchByte s.writeLatch 3 b) { s with writeLatch := latchByte s.writeLatch 3 b } with
          writeLatch := 0 } := by
    rw [bus8Write, show busLane (4 * reg.toNat + 3) = 3 from hl, show busReg (4 * reg.toNat + 3) = reg from hr]
    rfl
  rw [exec_of_completes (.bus8Wb _ b hv), commit, regWrite_withLatch]

end

/-- Settles O24: three bytes only latch, and the fourth commits the word that `latchByte_four` finds there. -/
theorem fourByteWritesAreOneRegisterWrite : Obligations.FourByteWritesAreOneRegisterWrite := by
  unfold Obligations.FourByteWritesAreOneRegisterWrite
  intro reg d s hv
  let l1 := latchByte s.writeLatch 0 (d.extractLsb' 24 8)
  let l2 := latchByte l1 1 (d.extractLsb' 16 8)
  let l3 := latchByte l2 2 (d.extractLsb' 8 8)
  refine ⟨l1, l2, l3, exec_bus8Wb_latches hv reg (lane := 0) (by decide) _,
    exec_bus8Wb_latches (s := { s with writeLatch := l1 }) hv reg (lane := 1) (by decide) _,
    exec_bus8Wb_latches (s := { s with writeLatch := l2 }) hv reg (lane := 2) (by decide) _, ?_⟩
  rw [exec_bus8Wb_commits (s := { s with writeLatch := l3 }) hv, latchByte_four, regWrite_withLatch]

end Sys2Proof.Machine
end

section
/-! PROOFS. Numbers of the opcode table (O3, spec/30_encoding.md R93 to R95, R106, R113). -/

namespace Sys2Proof

/-- CONSTRUCT's parameters when every operand byte is 0: no default of R5 stands, but what is absent in
`Params.standard` is absent here too. -/
def Params.zero : Params :=
  { Params.standard with masterClockHz := 0, ulawBias := 0, fcMask := 0, startMask := 0, endMask := 0 }

theorem decodeTableWord_construct : decodeTableWord 3 6 = some (.construct Params.zero) := rfl

/-- Settles O3: the decoder is run on each number. -/
theorem tableKeysDecode : Obligations.TableKeysDecode := by
  unfold Obligations.TableKeysDecode
  exact ⟨rfl, rfl, rfl, rfl, rfl, rfl, rfl, rfl, ⟨Params.zero, decodeTableWord_construct⟩, rfl⟩

end Sys2Proof
end

section
/-! PROOFS. The blend of two words (O57, O56, spec/41_fetch_interp.md R131 to R139): the address and decode functions
over natural numbers and integers (`secondAddress_eq`, `ulaw_eq`), and the blend between its two words. -/

namespace Sys2Proof.Machine

/-- A mask of the low `k` bits is the remainder by 2^k. -/
theorem toNat_and_lowMask {n k : Nat} (x : BitVec n) {mask : BitVec n} (h : mask.toNat = 2 ^ k - 1) :
    (x &&& mask).toNat = x.toNat % 2 ^ k := by
  rw [BitVec.toNat_and, h, Nat.and_two_pow_sub_one_eq_mod]

/-! ## The blend (R138) -/

theorem interpolate_eq (s0 s1 : Int) (a0 : Word) :
    interpolate s0 s1 a0
      = (s0 * (2048 - (a0.toNat % 2048 : Nat)) + s1 * (a0.toNat % 2048 : Nat)) / 2048 := by
  rw [interpolate, toNat_and_lowMask (k := 11) a0 rfl]
  rfl

section
variable (s0 s1 : Int) {f : Int} (hf : 0 ≤ f) (hf' : f ≤ 2048)
include hf hf'

/-- The weights 2048 - f and f are not negative and sum to 2048. -/
theorem min_le_blend : min s0 s1 ≤ (s0 * (2048 - f) + s1 * f) / 2048 := by
  have h0 : min s0 s1 * (2048 - f) ≤ s0 * (2048 - f) :=
    mul_le_mul_of_nonneg_right (min_le_left s0 s1) (by omega)
  have h1 : min s0 s1 * f ≤ s1 * f := mul_le_mul_of_nonneg_right (min_le_right s0 s1) hf
  exact Int.le_ediv_of_mul_le (by decide) (by linarith)

theorem blend_le_max : (s0 * (2048 - f) + s1 * f) / 2048 ≤ max s0 s1 := by
  have h0 : s0 * (2048 - f) ≤ max s0 s1 * (2048 - f) :=
    mul_le_mul_of_nonneg_right (le_max_left s0 s1) (by omega)
  have h1 : s1 * f ≤ max s0 s1 * f := mul_le_mul_of_nonneg_right (le_max_right s0 s1) hf
  exact Int.ediv_le_of_le_mul (by decide) (by linarith)

end

/-- Settles O57: the fraction is a weight in 0..2047, and with weight 0 the second word drops out. -/
theorem interpolationStaysBetween : Obligations.InterpolationStaysBetween := by
  unfold Obligations.InterpolationStaysBetween
  intro s0 s1 a0
  rw [interpolate_eq]
  have fraction : a0.toNat % 2048 < 2048 := Nat.mod_lt _ (by decide)
  refine ⟨min_le_blend s0 s1 (by omega) (by omega), blend_le_max s0 s1 (by omega) (by omega), fun h => ?_⟩
  rw [h]
  omega

/-! ## Addresses (R131, R132) -/

theorem firstAddress_eq (exBank a0 : Word) : firstAddress exBank a0 = exBank.toNat + a0.toNat / 2048 := by
  rw [firstAddress, BitVec.toNat_ushiftRight, Nat.shiftRight_eq_div_pow]

/-- Both variants' masks keep the low bits of the accumulator (R2). -/
theorem toNat_and_accumMask (q : Variant) (x : Word) :
    (x &&& q.accumMask).toNat = x.toNat % (q.accumMask.toNat + 1) := by
  cases q with
  | es5506 => exact toNat_and_lowMask (k := 32) x rfl
  | es5505 => exact toNat_and_lowMask (k := 31) x rfl

theorem secondAddress_eq (q : Variant) (exBank a0 : Word) :
    secondAddress q.accumMask exBank a0
      = exBank.toNat + (a0.toNat + 2048) % 4294967296 % (q.accumMask.toNat + 1) / 2048 := by
  rw [secondAddress, BitVec.toNat_ushiftRight, toNat_and_accumMask, Nat.shiftRight_eq_div_pow, BitVec.toNat_add]
  rfl

/-! ## Decode (R134 to R137) -/

/-- A number below 2^16 read as two's complement (R8). -/
def signed16 (z : Nat) : Int := if z < 32768 then z else (z : Int) - 65536

theorem toInt_hword (x : Hword) : x.toInt = signed16 x.toNat := by
  rw [BitVec.toInt_eq_toNat_cond, signed16]
  split <;> split <;> omega

/-- The biased code of R136: the byte in the high half, the bias over it. -/
theorem toNat_ulawCode (bias : Hword) (i : Byte) :
    ((i.setWidth 16 <<< 8) ||| bias).toNat = (256 * i.toNat) ||| bias.toNat := by
  have high : (i.setWidth 16 <<< 8).toNat = 256 * i.toNat := by
    have := i.isLt
    rw [BitVec.toNat_shiftLeft, BitVec.toNat_setWidth, Nat.shiftLeft_eq]
    omega
  rw [BitVec.toNat_or, high]

theorem signBit_eq_twoPow : (0x8000 : Hword) = BitVec.twoPow 16 15 := rfl

theorem toNat_not_and_signBit (m : Hword) :
    (~~~m &&& 0x8000).toNat = if m.toNat < 32768 then 32768 else 0 := by
  have bit : (~~~m).getLsbD 15 = decide (m.toNat < 32768) := by
    rw [BitVec.getLsbD_not, show m.getLsbD 15 = m.msb from rfl, BitVec.msb_eq_decide]
    simp [← decide_not]
  rw [signBit_eq_twoPow, BitVec.and_twoPow, bit]
  by_cases h : m.toNat < 32768 <;> simp [h]

/-- The fold of R136: bit 15 is empty after the shift, so setting it there is adding it. -/
theorem toNat_ulawFold (m : Hword) :
    ((m >>> 1) ||| (~~~m &&& 0x8000)).toNat = m.toNat / 2 + if m.toNat < 32768 then 32768 else 0 := by
  have disjoint : (m >>> 1) &&& (~~~m &&& 0x8000) = 0#16 := by
    rw [BitVec.and_comm (~~~m), ← BitVec.and_assoc, signBit_eq_twoPow, BitVec.and_twoPow]
    simp
  rw [← BitVec.add_eq_or_of_and_eq_zero _ _ disjoint, BitVec.toNat_add, BitVec.toNat_ushiftRight,
    toNat_not_and_signBit, Nat.shiftRight_eq_div_pow]
  have := m.isLt
  split <;> omega

/-- The entry of the u-law table for the byte `b`, in the arithmetic of R136 and R137. -/
def ulawEntry (bias b : Nat) : Int :=
  let code := (256 * b) ||| bias
  let m := 8 * code % 65536
  if code / 8192 = 0 then signed16 m / 128
  else signed16 (m / 2 + if m < 32768 then 32768 else 0) / 2 ^ (7 - code / 8192)

theorem ulaw_eq (bias : Hword) (i : Byte) : ulaw bias i = ulawEntry bias.toNat i.toNat := by
  have code := toNat_ulawCode bias i
  generalize hc : (i.setWidth 16 <<< 8) ||| bias = c at code
  have exponent : (c >>> 13).toNat = c.toNat / 8192 := by
    rw [BitVec.toNat_ushiftRight, Nat.shiftRight_eq_div_pow]
  have shifted : (c <<< 3).toNat = 8 * c.toNat % 65536 := by
    rw [BitVec.toNat_shiftLeft, Nat.shiftLeft_eq, Nat.mul_comm]
  simp only [ulaw, ulawEntry, hc, exponent, asr, toInt_hword, toNat_ulawFold, shifted, ← code, Nat.cast_pow]
  rfl

theorem decodeSample_pcm (bias w : Hword) : decodeSample bias false w = w.toInt := rfl

theorem decodeSample_ulaw (bias w : Hword) : decodeSample bias true w = ulaw bias (w.extractLsb' 8 8) := rfl

theorem toNat_highByte (w : Hword) : (w.extractLsb' 8 8).toNat = w.toNat / 256 := by
  have := w.isLt
  rw [BitVec.extractLsb'_toNat, Nat.shiftRight_eq_div_pow]
  omega

/-! ## A sample of supplied words -/

/-- Settles O56: both words are the host's, and address and decode are their arithmetic. -/
theorem sampleBlendsTwoWords : Obligations.SampleBlendsTwoWords := by
  unfold Obligations.SampleBlendsTwoWords
  intro p chip law ws v a0 i0 i1 s16 table decoded h0 h1 f
  have decode (w : Hword) : decodeSample p.ulawBias law w = decoded w := by
    cases law with
    | false => exact (decodeSample_pcm _ w).trans (toInt_hword w)
    | true => rw [decodeSample_ulaw, ulaw_eq, toNat_highByte]; rfl
  have first : memRead chip v.bank (memOfWords ws) (firstAddress v.exBank a0) = ws[i0]'h0 := by
    rw [firstAddress_eq]
    exact suppliedWordsAreRead ws i0 chip v.bank h0
  have second : memRead chip v.bank (memOfWords ws) (secondAddress p.variant.accumMask v.exBank a0) = ws[i1]'h1 := by
    rw [secondAddress_eq]
    exact suppliedWordsAreRead ws i1 chip v.bank h1
  rw [fetchInterp, first, second, decode, decode, interpolate_eq]

end Sys2Proof.Machine
end

section
/-! PROOFS. The volume stage (O60, spec/41_fetch_interp.md R142, spec/45_mixer.md R227, R228): the table's entries
(`volume_standard`), the wrapped product (`contribution_eq`) and its sum into a slot. -/

namespace Sys2Proof.Machine

/-! ## The table (R142) -/

/-- Bit 8 lies above the low byte, so setting it there is adding it. -/
theorem lowByte_or_bit8 (i : Nat) : (i &&& 0xFF) ||| 0x100 = i % 256 + 256 := by
  have low : i &&& 0xFF = i % 2 ^ 8 := Nat.and_two_pow_sub_one_eq_mod i 8
  rw [low, Nat.or_comm, Nat.add_comm]
  exact (Nat.two_pow_add_eq_or_of_lt (i := 8) (Nat.mod_lt i (by decide)) 1).symm

/-- The largest entry of the default formula is that of mantissa 511 and exponent 15. -/
theorem standardEntry_le {i : Nat} (h : i < 4096) : (i % 256 + 256) * 2048 / 2 ^ (20 - i / 256) ≤ 32704 :=
  calc (i % 256 + 256) * 2048 / 2 ^ (20 - i / 256)
    _ ≤ (i % 256 + 256) * 2048 / 2 ^ 5 :=
        Nat.div_le_div_left (Nat.pow_le_pow_right (by decide) (by omega)) (by decide)
    _ ≤ 32704 := by omega

theorem volume_standard {i : Nat} (h : i < 4096) :
    (volume .standard i).toNat = (i % 256 + 256) * 2048 / 2 ^ (20 - i / 256) := by
  rw [volume, lowByte_or_bit8, Nat.shiftLeft_eq, Nat.shiftRight_eq_div_pow, Nat.shiftRight_eq_div_pow,
    BitVec.toNat_ofNat]
  exact Nat.mod_eq_of_lt ((standardEntry_le h).trans_lt (by decide))

theorem volume_standard_le {i : Nat} (h : i < 4096) : (volume .standard i).toNat ≤ 32704 := by
  rw [volume_standard h]
  exact standardEntry_le h

theorem volume_custom (entries : List Hword) {i : Nat} (h : i < entries.length) :
    volume (.custom entries) i = entries[i] := by
  simp [volume, h]

/-! ## The product and the sum (R227, R228) -/

theorem contribution_eq (t : VolumeLookup) (y : Int) (vol : Hword) :
    contribution t y vol = Int.bmod (y * (volume t (vol.toNat / 16)).toNat) 4294967296 / 2048 := by
  rw [contribution, BitVec.toNat_ushiftRight, Nat.shiftRight_eq_div_pow]
  rfl

theorem toInt_add_ofInt (x : Word) (c : Int) :
    (x + BitVec.ofInt 32 c).toInt = Int.bmod (x.toInt + c) 4294967296 := by
  rw [BitVec.toInt_add, BitVec.toInt_ofInt, Int.add_bmod_bmod]

theorem bmod_eq_self_of_i32 {z : Int} (h : -2147483648 ≤ z) (h' : z ≤ 2147483647) : Int.bmod z 4294967296 = z :=
  Int.bmod_eq_of_le (by omega) (by omega)

/-- An i16 output times an entry of the default table stays far inside i32. -/
theorem standardProduct_bounds {y : Int} (hy : -32768 ≤ y) (hy' : y ≤ 32767) {k : Nat} (hk : k ≤ 32704) :
    -1071644672 ≤ y * k ∧ y * k ≤ 1071644671 := by
  have low : -32768 * (k : Int) ≤ y * k := mul_le_mul_of_nonneg_right hy (Int.natCast_nonneg k)
  have high : y * (k : Int) ≤ 32767 * k := mul_le_mul_of_nonneg_right hy' (Int.natCast_nonneg k)
  omega

/-- Settles O60: table, product and sum in turn; with the default table the product's bounds divide to the sum's. -/
theorem volumeStageScalesAndAccumulates : Obligations.VolumeStageScalesAndAccumulates := by
  unfold Obligations.VolumeStageScalesAndAccumulates
  refine ⟨fun i => volume_standard, fun entries i => volume_custom entries, fun t y v slot => ?_,
    fun y vol hy hy' => ?_⟩
  · intro added
    have left := contribution_eq t y v.lvol
    have right := contribution_eq t y v.rvol
    refine ⟨?_, ?_, left, right⟩
    · rw [addTo, toInt_add_ofInt, left]
    · rw [addTo, toInt_add_ofInt, right]
  · have index : vol.toNat / 16 < 4096 := by have := vol.isLt; omega
    obtain ⟨low, high⟩ := standardProduct_bounds hy hy' (volume_standard_le index)
    have unwrapped : contribution .standard y vol = y * (volume .standard (vol.toNat / 16)).toNat / 2048 := by
      rw [contribution_eq, bmod_eq_self_of_i32 (by omega) (by omega)]
    exact ⟨unwrapped, by omega, by omega⟩

end Sys2Proof.Machine
end

section
/-! PROOFS. The filter history reaches no timing (O46, spec/41_fetch_interp.md R141, spec/42_filter.md R162,
spec/45_mixer.md R233): every stage but the filter commutes with giving a voice another history
(`boundary_withHistory` and the lemmas before it), and the filter writes nothing else (`filter_withHistory`). -/

namespace Sys2Proof.Machine

/-- The voice with the filter history of `h`. -/
def Voice.withHistory (h v : Voice) : Voice :=
  { v with o1n1 := h.o1n1, o2n1 := h.o2n1, o2n2 := h.o2n2, o3n1 := h.o3n1, o3n2 := h.o3n2, o4n1 := h.o4n1 }

theorem withoutHistory_eq (v : Voice) : withoutHistory v = Voice.fresh.withHistory v := rfl

/-! ## The stages -/

theorem advance_withHistory (mask : Word) (h v : Voice) :
    advance mask (h.withHistory v) = h.withHistory (advance mask v) := rfl

theorem envelope_withHistory (h v : Voice) (n : Nat) : envelope (h.withHistory v) n = h.withHistory (envelope v n) := by
  have ecount : (h.withHistory v).ecount = v.ecount := rfl
  rw [envelope, envelope, ecount]
  by_cases done : v.ecount = 0
  · rw [if_pos done, if_pos done]
  · rw [if_neg done, if_neg done]
    rfl

theorem requestIrq_withHistory (h v : Voice) : requestIrq (h.withHistory v) = h.withHistory (requestIrq v) :=
  (apply_ite h.withHistory (v.irqe = true) (setIrq v) v).symm

theorem resolve_withHistory (mask : Word) (h v : Voice) :
    resolve mask (h.withHistory v) = h.withHistory (resolve mask v) := by
  have mode : (h.withHistory v).loopMode = v.loopMode := rfl
  have dir : (h.withHistory v).dir = v.dir := rfl
  rw [resolve, resolve, mode, dir]
  cases v.loopMode with
  | none => rfl
  | unidirectional => rfl
  | transWave => rfl
  | bidirectional => cases v.dir <;> rfl

theorem boundary_withHistory (mask : Word) (h v : Voice) :
    boundary mask (h.withHistory v) = h.withHistory (boundary mask v) := by
  have crossing : crossed (h.withHistory v) = crossed v := rfl
  rw [boundary, boundary, crossing, requestIrq_withHistory, resolve_withHistory]
  exact (apply_ite h.withHistory (crossed v = true) _ v).symm

theorem filter_withHistory (mode : FilterOverflow) (h v : Voice) (x : Int) (draws : Nat) :
    h.withHistory (filter mode v x draws).voice = h.withHistory v := by
  simp only [filter]
  split <;> rfl

/-! ## One sample -/

/-- What a sample does to a voice, the filter apart (R226, R233). -/
def silentSample (mask : Word) (v : Voice) : Voice := boundary mask (envelope (advance mask v) 1)

theorem sample_silent (p : Params) (chip : Nat) (r : Run) (slot : Slot) :
    sample p chip .silent r slot = (⟨silentSample p.variant.accumMask r.voice, r.draws⟩, slot) := rfl

theorem silentSample_withHistory (mask : Word) (h v : Voice) :
    silentSample mask (h.withHistory v) = h.withHistory (silentSample mask v) := by
  rw [silentSample, advance_withHistory, envelope_withHistory, boundary_withHistory, silentSample]

/-- But for the history, a sample does on any path what it does on the silent one. -/
theorem sample_voice_withHistory (p : Params) (chip : Nat) (path : Path) (r : Run) (slot : Slot) (h : Voice) :
    h.withHistory (sample p chip path r slot).1.voice
      = silentSample p.variant.accumMask (h.withHistory r.voice) := by
  cases path with
  | silent => rw [sample_silent, silentSample_withHistory]
  | sound law m =>
    rw [sample]
    simp only
    rw [← boundary_withHistory, ← envelope_withHistory, filter_withHistory, ← advance_withHistory, silentSample]

/-! ## A batch -/

/-- But for the history, a batch leaves on any path the voice that the silent path leaves. -/
theorem playBatch_voice_withHistory (p : Params) (chip : Nat) (path : Path) (h : Voice) {r r' : Run}
    (same : h.withHistory r.voice = h.withHistory r'.voice) (slots : List Slot) :
    h.withHistory (playBatch p chip path r slots).1.voice
      = h.withHistory (playBatch p chip .silent r' slots).1.voice := by
  induction slots generalizing r r' with
  | nil => exact same
  | cons slot slots ih =>
    have stopped : r'.voice.stopped = r.voice.stopped := (congrArg Voice.stopped same).symm
    cases hs : r.voice.stopped with
    | true =>
      rw [playBatch_stopped _ _ _ r _ hs (by simp), playBatch_stopped _ _ _ r' _ (stopped.trans hs) (by simp)]
      simp only [← envelope_withHistory, same]
    | false =>
      rw [playBatch_cons _ _ _ r _ _ hs, playBatch_cons _ _ _ r' _ _ (stopped.trans hs)]
      refine ih ?_
      rw [sample_voice_withHistory, sample_voice_withHistory, same]

/-- The silent path adds nothing and draws nothing. -/
theorem playBatch_silent_keeps (p : Params) (chip : Nat) (r : Run) (slots : List Slot) :
    (playBatch p chip .silent r slots).2 = slots ∧ (playBatch p chip .silent r slots).1.draws = r.draws := by
  induction slots generalizing r with
  | nil => exact ⟨rfl, rfl⟩
  | cons slot slots ih =>
    cases hs : r.voice.stopped with
    | true => rw [playBatch_stopped _ _ _ _ _ hs (by simp)]; exact ⟨rfl, rfl⟩
    | false =>
      obtain ⟨buffers, draws⟩ := ih (sample p chip .silent r slot).1
      rw [playBatch_cons _ _ _ _ _ _ hs]
      exact ⟨congrArg (slot :: ·) buffers, draws⟩

/-- A history the voice has on entry it has after the silent path. -/
theorem playBatch_silent_history (p : Params) (chip : Nat) {h : Voice} {r : Run}
    (has : h.withHistory r.voice = r.voice) (slots : List Slot) :
    h.withHistory (playBatch p chip .silent r slots).1.voice = (playBatch p chip .silent r slots).1.voice := by
  induction slots generalizing r with
  | nil => exact has
  | cons slot slots ih =>
    cases hs : r.voice.stopped with
    | true =>
      rw [playBatch_stopped _ _ _ _ _ hs (by simp)]
      simp only [← envelope_withHistory, has]
    | false =>
      rw [playBatch_cons _ _ _ _ _ _ hs]
      refine ih ?_
      rw [sample_voice_withHistory, has, sample_silent]

/-- Settles O46: the silent path keeps the history the voice enters with, and the sounding path leaves the same voice
once the history of both is set to 0. -/
theorem missingMemoryKeepsTiming : Obligations.MissingMemoryKeepsTiming := by
  unfold Obligations.MissingMemoryKeepsTiming
  intro p chip law m r slots silent sound
  obtain ⟨buffers, draws⟩ := playBatch_silent_keeps p chip r slots
  have kept : silent.1.voice = r.voice.withHistory silent.1.voice := (playBatch_silent_history p chip rfl slots).symm
  have timing : withoutHistory sound.1.voice = withoutHistory silent.1.voice := by
    rw [withoutHistory_eq, withoutHistory_eq]
    exact playBatch_voice_withHistory p chip (.sound law m) Voice.fresh rfl slots
  refine ⟨buffers, draws, ?_, ?_, ?_, ?_, ?_, ?_, timing⟩
  all_goals
    rw [kept]
    rfl

end Sys2Proof.Machine
end

section
/-! PROOFS. The filter sections (O58, spec/42_filter.md R151, R152, R160, R164): a section is exact on the wrapped
formula, reports an overflow exactly when a step of it does not fit, and keeps the bounds that its coefficient gives. -/

namespace Sys2Proof.Machine

/-! ## The formulas, and when they fit -/

/-- `LP(k, y, o)` as R152 writes it. -/
def lowPassValue (k : Hword) (y o : Int) : Int :=
  wrap32 (Int.tdiv (wrap32 ((k.toNat / 4 : Nat) * wrap32 (y - o))) 16384 + o)

/-- `HP(k, y, oprev, o)` as R152 writes it. -/
def highPassValue (k : Hword) (y oprev o : Int) : Int :=
  wrap32 (y - oprev + Int.tdiv (wrap32 ((k.toNat / 4 : Nat) * o)) 32768 + Int.tdiv o 2)

/-- An i32 value: what a section may compute without reporting an overflow (R160). -/
def Fits32 (z : Int) : Prop := -2147483648 ≤ z ∧ z ≤ 2147483647

theorem outside32_eq_false_iff (z : Int) : outside32 z = false ↔ Fits32 z := by
  simp only [outside32, Fits32, Bool.or_eq_false_iff, decide_eq_false_iff_not, not_lt]

theorem wrap32_of_fits {z : Int} (h : Fits32 z) : wrap32 z = z := bmod_eq_self_of_i32 h.1 h.2

theorem coefficient_eq (k : Hword) : coefficient k = (k.toNat / 4 : Nat) := by
  rw [coefficient, BitVec.toNat_ushiftRight, Nat.shiftRight_eq_div_pow]

/-- Every step of `LP(k, y, o)` is an i32. -/
def LowPassFits (k : Hword) (y o : Int) : Prop :=
  Fits32 (y - o) ∧ Fits32 ((k.toNat / 4 : Nat) * (y - o))
    ∧ Fits32 (Int.tdiv ((k.toNat / 4 : Nat) * (y - o)) 16384 + o)

/-- Every step of `HP(k, y, oprev, o)` is an i32. -/
def HighPassFits (k : Hword) (y oprev o : Int) : Prop :=
  Fits32 (y - oprev) ∧ Fits32 ((k.toNat / 4 : Nat) * o)
    ∧ Fits32 (y - oprev + Int.tdiv ((k.toNat / 4 : Nat) * o) 32768)
    ∧ Fits32 (y - oprev + Int.tdiv ((k.toNat / 4 : Nat) * o) 32768 + Int.tdiv o 2)

theorem lowPass_out (k : Hword) (y o : Int) : (lowPass k y o).out = lowPassValue k y o := by
  rw [lowPassValue, ← coefficient_eq]
  rfl

theorem highPass_out (k : Hword) (y oprev o : Int) : (highPass k y oprev o).out = highPassValue k y oprev o := by
  rw [highPassValue, ← coefficient_eq]
  rfl

/-- A step is reported in the terms of the wrapped one before it; where that one fits, wrapping does nothing. -/
theorem lowPass_overflow_eq_false_iff (k : Hword) (y o : Int) :
    (lowPass k y o).overflow = false ↔ LowPassFits k y o := by
  simp only [lowPass, LowPassFits, tdiv, Bool.or_eq_false_iff, outside32_eq_false_iff, coefficient_eq, and_assoc]
  refine and_congr_right fun difference => ?_
  rw [wrap32_of_fits difference]
  refine and_congr_right fun product => ?_
  rw [wrap32_of_fits product]

theorem highPass_overflow_eq_false_iff (k : Hword) (y oprev o : Int) :
    (highPass k y oprev o).overflow = false ↔ HighPassFits k y oprev o := by
  simp only [highPass, HighPassFits, tdiv, Bool.or_eq_false_iff, outside32_eq_false_iff, coefficient_eq, and_assoc]
  refine and_congr_right fun _ => and_congr_right fun product => ?_
  rw [wrap32_of_fits product]

/-- Where every step fits, the output is the exact sum. -/
theorem lowPass_out_of_fits {k : Hword} {y o : Int} (h : LowPassFits k y o) :
    (lowPass k y o).out = Int.tdiv ((k.toNat / 4 : Nat) * (y - o)) 16384 + o := by
  obtain ⟨difference, product, total⟩ := h
  rw [lowPass_out, lowPassValue, wrap32_of_fits difference, wrap32_of_fits product, wrap32_of_fits total]

theorem highPass_out_of_fits {k : Hword} {y oprev o : Int} (h : HighPassFits k y oprev o) :
    (highPass k y oprev o).out = y - oprev + Int.tdiv ((k.toNat / 4 : Nat) * o) 32768 + Int.tdiv o 2 := by
  obtain ⟨-, product, -, total⟩ := h
  rw [highPass_out, highPassValue, wrap32_of_fits product, wrap32_of_fits total]

/-! ## Bounds -/

/-- Truncation toward zero as a floor on either side of 0. -/
theorem tdiv_eq_ite (a n : Int) : Int.tdiv a n = if 0 ≤ a then a / n else -(-a / n) := by
  split
  · exact Int.tdiv_eq_ediv_of_nonneg ‹_›
  · rw [← Int.tdiv_eq_ediv_of_nonneg (by omega), Int.neg_tdiv, neg_neg]

/-- A coefficient times a value lies between 0 and 16383 times that value. -/
theorem coefficient_mul_bounds (k : Hword) (d : Int) :
    (0 ≤ d → 0 ≤ (k.toNat / 4 : Nat) * d ∧ (k.toNat / 4 : Nat) * d ≤ 16383 * d)
      ∧ (d ≤ 0 → 16383 * d ≤ (k.toNat / 4 : Nat) * d ∧ (k.toNat / 4 : Nat) * d ≤ 0) := by
  have nonneg : (0 : Int) ≤ (k.toNat / 4 : Nat) := Int.natCast_nonneg _
  have le : ((k.toNat / 4 : Nat) : Int) ≤ 16383 := by have := k.isLt; omega
  exact ⟨fun h => ⟨mul_nonneg nonneg h, mul_le_mul_of_nonneg_right le h⟩,
    fun h => ⟨mul_le_mul_of_nonpos_right le h, mul_nonpos_of_nonneg_of_nonpos nonneg h⟩⟩

/-- LP goes from the history towards the input, and not past it. -/
theorem lowPass_between (k : Hword) {y o : Int} (hy : Fits32 y) (ho : Fits32 o) (near : y - o ≤ 131071)
    (near' : o - y ≤ 131071) :
    LowPassFits k y o ∧ min o y ≤ (lowPass k y o).out ∧ (lowPass k y o).out ≤ max o y := by
  obtain ⟨up, down⟩ := coefficient_mul_bounds k (y - o)
  have fits : LowPassFits k y o := by
    simp only [LowPassFits, Fits32, tdiv_eq_ite] at *
    omega
  rw [lowPass_out_of_fits fits, tdiv_eq_ite]
  exact ⟨fits, by omega, by omega⟩

/-- A coefficient of 0 leaves the history as it is. -/
theorem lowPass_of_lt_four {k : Hword} (h : k.toNat < 4) (y : Int) {o : Int} (ho : Fits32 o) :
    (lowPass k y o).out = o := by
  have zero : k.toNat / 4 = 0 := Nat.div_eq_of_lt h
  rw [lowPass_out, lowPassValue, zero, Nat.cast_zero, zero_mul]
  exact (congrArg wrap32 (zero_add o)).trans (wrap32_of_fits ho)

theorem highPass_fits_of_18_bits (k : Hword) {y oprev o : Int} (hy : -131072 ≤ y ∧ y ≤ 131071)
    (hoprev : -131072 ≤ oprev ∧ oprev ≤ 131071) (ho : -131072 ≤ o ∧ o ≤ 131071) : HighPassFits k y oprev o := by
  obtain ⟨up, down⟩ := coefficient_mul_bounds k o
  simp only [HighPassFits, Fits32, tdiv_eq_ite]
  omega

/-- Settles O58: formulas and overflow reports, then the bounds of LP, its zero coefficient, and the exact HP. -/
theorem filterSectionsAreExactAndBounded : Obligations.FilterSectionsAreExactAndBounded := by
  unfold Obligations.FilterSectionsAreExactAndBounded
  refine ⟨fun k y oprev o => ?_, fun k y o hy hy' ho ho' near near' => ?_, fun k y o hk ho ho' => ?_,
    fun k y oprev o hy hy' hoprev hoprev' ho ho' => ?_⟩
  · exact ⟨lowPass_out k y o, lowPass_overflow_eq_false_iff k y o, highPass_out k y oprev o,
      highPass_overflow_eq_false_iff k y oprev o⟩
  · obtain ⟨fits, low, high⟩ := lowPass_between k ⟨hy, hy'⟩ ⟨ho, ho'⟩ near near'
    exact ⟨low, high, (lowPass_overflow_eq_false_iff k y o).mpr fits⟩
  · exact lowPass_of_lt_four hk y ⟨ho, ho'⟩
  · have fits := highPass_fits_of_18_bits k ⟨hy, hy'⟩ ⟨hoprev, hoprev'⟩ ⟨ho, ho'⟩
    exact ⟨(highPass_overflow_eq_false_iff k y oprev o).mpr fits, highPass_out_of_fits fits⟩

end Sys2Proof.Machine
end

section
/-! PROOFS. One filter call (O59, spec/42_filter.md R153 to R160): what the four poles give by pole select
(`cascade_of_outputs`), and when the call keeps it. -/

namespace Sys2Proof.Machine

/-! ## The poles that the pole select chooses (R153, R156 to R159) -/

/-- Pole 3 on the output `y` of pole 2. -/
def thirdPole (v : Voice) (y : Int) : Pole :=
  if v.lp3 then lowPass v.k1 y v.o3n1.toInt
  else if v.lp4 then lowPass v.k2 y v.o3n1.toInt
  else highPass v.k2 y v.o2n1.toInt v.o3n1.toInt

/-- Pole 4 on the output `y` of pole 3. -/
def fourthPole (v : Voice) (y : Int) : Pole :=
  if v.lp4 then lowPass v.k2 y v.o4n1.toInt else highPass v.k2 y v.o3n1.toInt v.o4n1.toInt

theorem thirdPole_out (v : Voice) (y : Int) :
    (thirdPole v y).out
      = if v.lp3 then lowPassValue v.k1 y v.o3n1.toInt
        else if v.lp4 then lowPassValue v.k2 y v.o3n1.toInt
        else highPassValue v.k2 y v.o2n1.toInt v.o3n1.toInt := by
  simp only [thirdPole, apply_ite Pole.out, lowPass_out, highPass_out]

theorem fourthPole_out (v : Voice) (y : Int) :
    (fourthPole v y).out
      = if v.lp4 then lowPassValue v.k2 y v.o4n1.toInt else highPassValue v.k2 y v.o3n1.toInt v.o4n1.toInt := by
  simp only [fourthPole, apply_ite Pole.out, lowPass_out, highPass_out]

theorem thirdPole_overflow_eq_false_iff (v : Voice) (y : Int) :
    (thirdPole v y).overflow = false
      ↔ if v.lp3 then LowPassFits v.k1 y v.o3n1.toInt
        else if v.lp4 then LowPassFits v.k2 y v.o3n1.toInt
        else HighPassFits v.k2 y v.o2n1.toInt v.o3n1.toInt := by
  rw [thirdPole]
  split
  · exact lowPass_overflow_eq_false_iff ..
  · split
    · exact lowPass_overflow_eq_false_iff ..
    · exact highPass_overflow_eq_false_iff ..

theorem fourthPole_overflow_eq_false_iff (v : Voice) (y : Int) :
    (fourthPole v y).overflow = false
      ↔ if v.lp4 then LowPassFits v.k2 y v.o4n1.toInt else HighPassFits v.k2 y v.o3n1.toInt v.o4n1.toInt := by
  rw [fourthPole]
  split
  · exact lowPass_overflow_eq_false_iff ..
  · exact highPass_overflow_eq_false_iff ..

/-! ## Outputs are i32 (R151) -/

theorem wrap32_fits (z : Int) : Fits32 (wrap32 z) := by
  have low := Int.le_bmod (x := z) (m := 4294967296) (by decide)
  have high := Int.bmod_lt (x := z) (m := 4294967296) (by decide)
  rw [Fits32, wrap32]
  omega

theorem lowPass_out_fits (k : Hword) (y o : Int) : Fits32 (lowPass k y o).out := wrap32_fits _

theorem highPass_out_fits (k : Hword) (y oprev o : Int) : Fits32 (highPass k y oprev o).out := wrap32_fits _

theorem thirdPole_out_fits (v : Voice) (y : Int) : Fits32 (thirdPole v y).out := by
  rw [thirdPole]
  split
  · exact lowPass_out_fits ..
  · split
    · exact lowPass_out_fits ..
    · exact highPass_out_fits ..

theorem fourthPole_out_fits (v : Voice) (y : Int) : Fits32 (fourthPole v y).out := by
  rw [fourthPole]
  split
  · exact lowPass_out_fits ..
  · exact highPass_out_fits ..

theorem toInt_ofInt_of_fits {z : Int} (h : Fits32 z) : (BitVec.ofInt 32 z).toInt = z :=
  (BitVec.toInt_ofInt ..).trans (bmod_eq_self_of_i32 h.1 h.2)

/-! ## The cascade -/

/-- Each pole takes the output of the one before it, and the two cells that only shift take their neighbours. -/
theorem cascade_of_outputs {v : Voice} {x y1 y2 y3 y4 : Int} (h1 : (lowPass v.k1 x v.o1n1.toInt).out = y1)
    (h2 : (lowPass v.k1 y1 v.o2n1.toInt).out = y2) (h3 : (thirdPole v y2).out = y3)
    (h4 : (fourthPole v y3).out = y4) :
    cascade v x = ⟨y4, y1, y2, v.o2n1.toInt, y3, v.o3n1.toInt, y4,
      (lowPass v.k1 x v.o1n1.toInt).overflow || (lowPass v.k1 y1 v.o2n1.toInt).overflow
        || (thirdPole v y2).overflow || (fourthPole v y3).overflow⟩ := by
  subst h1 h2 h3 h4
  simp only [cascade, thirdPole, fourthPole]
  cases v.lp4 <;> cases v.lp3 <;> rfl

/-! ## The call -/

/-- Under wrap, and where nothing overflows, the call keeps what the cascade computes and draws nothing. -/
theorem filter_keeps_cascade {mode : FilterOverflow} {v : Voice} {x : Int}
    (h : mode = .wrap ∨ (cascade v x).overflow = false) (draws : Nat) :
    let r := filter mode v x draws
    r.y = (cascade v x).y ∧ r.draws = draws ∧ r.voice.o1n1.toInt = (cascade v x).o1n1
      ∧ r.voice.o2n1.toInt = (cascade v x).o2n1 ∧ r.voice.o2n2 = v.o2n1 ∧ r.voice.o3n1.toInt = (cascade v x).o3n1
      ∧ r.voice.o3n2 = v.o3n1 ∧ r.voice.o4n1.toInt = (cascade v x).o4n1 := by
  have kept : ¬ (mode = .draw ∧ (cascade v x).overflow = true) := by
    rintro ⟨rfl, overflows⟩
    rcases h with h | h
    · cases h
    · rw [overflows] at h
      cases h
  rw [filter, if_neg kept, cascade_of_outputs rfl rfl rfl rfl]
  exact ⟨rfl, rfl, toInt_ofInt_of_fits (lowPass_out_fits ..), toInt_ofInt_of_fits (lowPass_out_fits ..),
    BitVec.ofInt_toInt, toInt_ofInt_of_fits (thirdPole_out_fits ..), BitVec.ofInt_toInt,
    toInt_ofInt_of_fits (fourthPole_out_fits ..)⟩

/-- Under draw an overflowing call gives seven free values, the output first, then the history (log 8). -/
theorem filter_draws {v : Voice} {x : Int} (h : (cascade v x).overflow = true) (draws : Nat) :
    let r := filter .draw v x draws
    let free := fun j => Config.filterDraw (draws + j)
    r.y = (free 0).toInt ∧ r.draws = draws + 7 ∧ r.voice.o1n1 = free 1 ∧ r.voice.o2n1 = free 2
      ∧ r.voice.o2n2 = free 3 ∧ r.voice.o3n1 = free 4 ∧ r.voice.o3n2 = free 5 ∧ r.voice.o4n1 = free 6 := by
  rw [filter, if_pos ⟨rfl, h⟩]
  exact ⟨rfl, rfl, rfl, rfl, rfl, rfl, rfl, rfl⟩

/-- Settles O59: the cascade has the outputs of R152's formulas and overflows exactly when not all of their steps fit;
the call keeps it or draws. -/
theorem filterCascadesFourPoles : Obligations.FilterCascadesFourPoles := by
  unfold Obligations.FilterCascadesFourPoles
  intro mode v x draws c w fits lp hp lpFits hpFits o1 o2 o3 o4 y1 y2 y3 y4 allFit r
  have outputs : cascade v x = ⟨y4, y1, y2, o2, y3, o3, y4,
      (lowPass v.k1 x o1).overflow || (lowPass v.k1 y1 o2).overflow || (thirdPole v y2).overflow
        || (fourthPole v y3).overflow⟩ :=
    cascade_of_outputs (lowPass_out ..) (lowPass_out ..) (thirdPole_out ..) (fourthPole_out ..)
  have overflow : (cascade v x).overflow = false ↔ allFit := by
    rw [outputs]
    simp only [Bool.or_eq_false_iff, lowPass_overflow_eq_false_iff, thirdPole_overflow_eq_false_iff,
      fourthPole_overflow_eq_false_iff, and_assoc]
    exact Iff.rfl
  refine ⟨filter_withHistory mode Voice.fresh v x draws, fun kept => ?_, fun draw misfit => ?_⟩
  · have cells := filter_keeps_cascade (kept.imp_right overflow.mpr) draws
    rwa [outputs] at cells
  · subst draw
    exact filter_draws (Bool.eq_true_of_not_eq_false (mt overflow.mp misfit)) draws

end Sys2Proof.Machine
end

section
/-! PROOFS. The returned buffers are the sums of the solo batches (O44, spec/45_mixer.md R222, R223, R228, R231): what a
batch adds to a slot does not depend on what the slot held, so each voice adds to the mix what it adds to zeros. -/

namespace Sys2Proof.Machine

/-! ## One channel of the slots -/

/-- A side of the slots that accumulates: a zeroed slot holds 0, and an accumulation adds the same to any slot (R228). -/
structure Channel (side : Slot → Word) : Prop where
  zeroed : side ⟨0, 0⟩ = 0
  adds : ∀ (t : VolumeLookup) (y : Int) (v : Voice) (slot : Slot),
    side (addTo t y v slot) = side slot + side (addTo t y v ⟨0, 0⟩)

theorem channel_left : Channel Slot.left :=
  ⟨rfl, fun _ _ _ slot => congrArg (slot.left + ·) (zero_add _).symm⟩

theorem channel_right : Channel Slot.right :=
  ⟨rfl, fun _ _ _ slot => congrArg (slot.right + ·) (zero_add _).symm⟩

/-- Sample `j` of one side of the buffers. -/
def sampleAt (side : Slot → Word) (slots : List Slot) (j : Nat) : Word := (slots.map side).getD j 0

theorem map_eq_map_sampleAt (side : Slot → Word) (slots : List Slot) :
    slots.map side = (List.range slots.length).map (sampleAt side slots) := by
  refine List.ext_getElem (by simp) fun j hj _ => ?_
  rw [List.getElem_map (f := sampleAt side slots), List.getElem_range, sampleAt, List.getD_eq_getElem _ _ hj]

section
variable {side : Slot → Word} (channel : Channel side)
include channel

theorem sampleAt_zeroed (n j : Nat) : sampleAt side (List.replicate n ⟨0, 0⟩) j = 0 := by
  rw [sampleAt, List.map_replicate, channel.zeroed, List.getD_eq_getElem?_getD, List.getElem?_replicate]
  split <;> rfl

/-! ## What a batch adds -/

theorem sample_adds (p : Params) (chip : Nat) (path : Path) (r : Run) (slot : Slot) :
    side (sample p chip path r slot).2 = side slot + side (sample p chip path r ⟨0, 0⟩).2 := by
  cases path with
  | silent => rw [sample_silent, sample_silent, channel.zeroed, add_zero]
  | sound law m => exact channel.adds ..

/-- A batch adds to the slots what it adds to zeroed ones. -/
theorem playBatch_adds (p : Params) (chip : Nat) (path : Path) (r : Run) (slots : List Slot) (j : Nat) :
    sampleAt side (playBatch p chip path r slots).2 j
      = sampleAt side slots j
        + sampleAt side (playBatch p chip path r (List.replicate slots.length ⟨0, 0⟩)).2 j := by
  induction slots generalizing r j with
  | nil => exact (add_zero _).symm
  | cons slot slots ih =>
    rw [List.length_cons, List.replicate_succ]
    cases hs : r.voice.stopped with
    | true =>
      rw [playBatch_stopped _ _ _ _ _ hs (by simp), playBatch_stopped _ _ _ _ _ hs (by simp), ← List.replicate_succ,
        sampleAt_zeroed channel, add_zero]
    | false =>
      rw [playBatch_cons _ _ _ _ _ _ hs, playBatch_cons _ _ _ _ _ _ hs]
      cases j with
      | zero => exact sample_adds channel p chip path r slot
      | succ j =>
        rw [sample_run p chip path r ⟨0, 0⟩ slot]
        exact ih _ j

/-- A voice mixed after others adds its solo batch, going on with the free values they left. -/
theorem voiceBatch_adds {vs : List VoiceIx} {v : VoiceIx} (h : v ∉ vs) (s : State) (slots : List Slot) (j : Nat) :
    let mixed := mixVoices s slots vs
    sampleAt side (voiceBatch mixed.1 v mixed.2).2 j
      = sampleAt side mixed.2 j + sampleAt side (soloBatch s v slots.length mixed.1.filterDraws).2 j := by
  intro mixed
  have adds := playBatch_adds channel mixed.1.params mixed.1.chips
    (pathOf mixed.1.params (enterPass mixed.1.params.variant.accumMask (mixed.1.voice v)))
    ⟨enterPass mixed.1.params.variant.accumMask (mixed.1.voice v), mixed.1.filterDraws⟩ mixed.2 j
  rw [voiceBatch, soloBatch]
  refine adds.trans ?_
  rw [mixVoices_length, mixVoices_params, mixVoices_chips, mixVoices_voice_of_not_mem vs s slots h]

/-! ## The sums -/

/-- The mix of the first `k` voices is the sum of their solo batches. -/
theorem sampleAt_mixVoices (s : State) (n j : Nat) {k : Nat} (hk : k ≤ 32) :
    sampleAt side (mixVoices s (List.replicate n ⟨0, 0⟩) (firstVoices k)).2 j
      = ((firstVoices k).map fun v => sampleAt side (soloBatch s v n (drawsBefore s n v.toNat)).2 j).sum := by
  induction k with
  | zero => exact sampleAt_zeroed channel n j
  | succ k ih =>
    have number : (BitVec.ofNat 5 k).toNat = k := by rw [BitVec.toNat_ofNat, Nat.mod_eq_of_lt hk]
    rw [mixVoices_firstVoices_succ, voiceBatch_adds channel (not_mem_firstVoices hk), ih (by omega),
      List.length_replicate, mixVoices_filterDraws s n (by omega), firstVoices_succ, List.map_append, List.sum_append,
      List.map_singleton, List.sum_singleton, number]

end

/-- One of GENERATE(N)'s two buffers, as the solo batches give it that start with `first` free values drawn. -/
def summedSolos (s : State) (n : Nat) (first : VoiceIx → Nat) (side : Slot → Word) : List Word :=
  (List.range n).map fun j => (s.activeVoices.map fun v => sampleAt side (soloBatch s v n (first v)).2 j).sum

theorem mixVoices_eq_summedSolos {side : Slot → Word} (channel : Channel side) (s : State) (n : Nat) :
    (mixVoices s (List.replicate n ⟨0, 0⟩) s.activeVoices).2.map side
      = summedSolos s n (fun v => drawsBefore s n v.toNat) side := by
  rw [map_eq_map_sampleAt, mixVoices_length, List.length_replicate, summedSolos, activeVoices_eq]
  exact List.map_congr_left fun j _ => sampleAt_mixVoices channel s n j s.activeVoiceCount.isLt

/-! ## Under wrap -/

theorem sample_wrap_draws {p : Params} (hp : p.filterOverflow = .wrap) (chip : Nat) (path : Path) (r : Run)
    (slot : Slot) : (sample p chip path r slot).1.draws = r.draws := by
  cases path with
  | silent => rfl
  | sound law m =>
    simp only [sample, hp]
    rfl

theorem sample_wrap_slot {p : Params} (hp : p.filterOverflow = .wrap) (chip : Nat) (path : Path) {r r' : Run}
    (h : r.voice = r'.voice) (slot : Slot) : (sample p chip path r slot).2 = (sample p chip path r' slot).2 := by
  cases path with
  | silent => rfl
  | sound law m =>
    simp only [sample, hp, h]
    rfl

/-- Under wrap a batch draws nothing. -/
theorem playBatch_wrap_draws {p : Params} (hp : p.filterOverflow = .wrap) (chip : Nat) (path : Path) (r : Run)
    (slots : List Slot) : (playBatch p chip path r slots).1.draws = r.draws := by
  induction slots generalizing r with
  | nil => rfl
  | cons slot slots ih =>
    cases hs : r.voice.stopped with
    | true => rw [playBatch_stopped _ _ _ _ _ hs (by simp)]
    | false =>
      rw [playBatch_cons _ _ _ _ _ _ hs]
      exact (ih _).trans (sample_wrap_draws hp chip path r slot)

/-- Under wrap what a batch adds does not depend on how many free values were drawn before. -/
theorem playBatch_wrap_slots {p : Params} (hp : p.filterOverflow = .wrap) (chip : Nat) (path : Path) {r r' : Run}
    (h : r.voice = r'.voice) (slots : List Slot) :
    (playBatch p chip path r slots).2 = (playBatch p chip path r' slots).2 := by
  induction slots generalizing r r' with
  | nil => rfl
  | cons slot slots ih =>
    cases hs : r.voice.stopped with
    | true => rw [playBatch_stopped _ _ _ r _ hs (by simp), playBatch_stopped _ _ _ r' _ (h ▸ hs) (by simp)]
    | false =>
      rw [playBatch_cons _ _ _ r _ _ hs, playBatch_cons _ _ _ r' _ _ (h ▸ hs)]
      exact congrArg₂ List.cons (sample_wrap_slot hp chip path h slot) (ih (sample_wrap_voice hp chip path h slot))

theorem soloBatch_wrap_slots {s : State} (hp : s.params.filterOverflow = .wrap) (v : VoiceIx) (n draws draws' : Nat) :
    (soloBatch s v n draws).2 = (soloBatch s v n draws').2 := by
  unfold soloBatch
  apply playBatch_wrap_slots hp
  rfl

theorem drawsBefore_wrap {s : State} (hp : s.params.filterOverflow = .wrap) (n k : Nat) :
    drawsBefore s n k = s.filterDraws := by
  induction k with
  | zero => rfl
  | succ k ih => exact (playBatch_wrap_draws hp ..).trans ih

theorem summedSolos_wrap {s : State} (hp : s.params.filterOverflow = .wrap) (n : Nat) (first first' : VoiceIx → Nat)
    (side : Slot → Word) : summedSolos s n first side = summedSolos s n first' side := by
  have solo := fun v => soloBatch_wrap_slots hp v n (first v) (first' v)
  simp only [summedSolos, solo]

/-! ## The pass -/

/-- The arbiter draws nothing. -/
theorem generate_filterDraws {n : Nat} (s : State) (h : 0 < n) :
    (generate n s).filterDraws = drawsBefore s n (s.activeVoiceCount.toNat + 1) := by
  have mixed := mixVoices_filterDraws s n (k := s.activeVoiceCount.toNat + 1) s.activeVoiceCount.isLt
  rw [← activeVoices_eq] at mixed
  rw [← mixed]
  rcases generate_cases n s h with ⟨-, e⟩ | ⟨_, -, -, -, -, e⟩ <;> rw [e]

theorem generate_buffers {n : Nat} (s : State) (h : 0 < n) :
    let chained := fun v : VoiceIx => drawsBefore s n v.toNat
    (generate n s).trace.getLast?
      = some (.buffers (summedSolos s n chained Slot.left) (summedSolos s n chained Slot.right)) := by
  rw [generate_pos n s h, State.emit_trace, List.getLast?_concat, mixVoices_eq_summedSolos channel_left,
    mixVoices_eq_summedSolos channel_right]

/-- Settles O44: the buffers are the mix's, which is the sum of the solo batches (`mixVoices_eq_summedSolos`); under wrap
no batch draws, and where it starts makes no difference. -/
theorem buffersAreTheSumOfTheVoices : Obligations.BuffersAreTheSumOfTheVoices := by
  unfold Obligations.BuffersAreTheSumOfTheVoices
  intro n s hn mixed chained
  have buffers := generate_buffers s hn
  have draws := generate_filterDraws s hn
  refine ⟨generate n s, rfl, buffers, draws, fun wrap => ⟨draws.trans (drawsBefore_wrap wrap n _), fun first => ?_⟩⟩
  rw [buffers, summedSolos_wrap wrap n _ first Slot.left, summedSolos_wrap wrap n _ first Slot.right]
  rfl

end Sys2Proof.Machine
end

section
/-! PROOFS. The envelope engine (O53, O54, spec/43_envelope.md R171 to R179): what a level and a gate are
(`toNat_ramped`, `rampGate_iff`), what a call does to each field (`envelope_counting` and the lemmas after it), and where
a run of single calls leaves the two counters (`toNat_ecount_iterate`, `toNat_filtCount_iterate`). -/

namespace Sys2Proof.Machine

/-! ## A ramped level (R174) -/

/-- The clamped sum is a 16-bit number: its pattern is its value. -/
theorem toNat_ramped (level : Hword) (delta : Byte) (c : Nat) :
    ((ramped level delta c).toNat : Int) = max 0 (min 65535 ((level.toNat : Int) + delta.toInt * c)) := by
  rw [ramped, clamp, BitVec.toNat_ofInt]
  omega

/-- A number below 2^8 read as two's complement (R8). -/
def signed8 (z : Nat) : Int := if z < 128 then (z : Int) else (z : Int) - 256

theorem toInt_byte (x : Byte) : x.toInt = signed8 x.toNat := by
  rw [BitVec.toInt_eq_toNat_cond, signed8]
  split <;> split <;> omega

theorem toNat_ramped_signed8 (level : Hword) (delta : Byte) (c : Nat) :
    ((ramped level delta c).toNat : Int) = max 0 (min 65535 ((level.toNat : Int) + signed8 delta.toNat * c)) := by
  rw [toNat_ramped, toInt_byte]

/-! ## The gate of a coefficient (R175, R176) -/

/-- The slow flag is the sign bit of the stored ramp. -/
theorem slowFlag_eq (ramp : Word) : ramp.getLsbD 31 = decide (2147483648 ≤ ramp.toNat) :=
  BitVec.msb_eq_decide ramp

theorem filtCount_and_seven_eq_zero_iff (filtCount : Byte) : filtCount &&& 7 = 0 ↔ filtCount.toNat % 8 = 0 := by
  rw [BitVec.toNat_eq, toNat_and_lowMask (k := 3) filtCount rfl]
  rfl

theorem rampGate_iff (ramp : Word) (filtCount : Byte) :
    rampGate ramp filtCount = true ↔ ramp ≠ 0 ∧ (ramp.toNat < 2147483648 ∨ filtCount.toNat % 8 = 0) := by
  rw [rampGate, Bool.and_eq_true, Bool.or_eq_true, bne_iff_ne, beq_iff_eq, slowFlag_eq, filtCount_and_seven_eq_zero_iff,
    ← decide_not, decide_eq_true_iff, not_le]

/-- A slow ramp is nonzero by its flag, so the counter alone decides. -/
theorem rampGate_slow_iff {ramp : Word} (slow : ramp.getLsbD 31 = true) (filtCount : Byte) :
    rampGate ramp filtCount = true ↔ filtCount.toNat % 8 = 0 := by
  have nonzero : ramp ≠ 0 := fun zero => by simp [zero] at slow
  have large : 2147483648 ≤ ramp.toNat := of_decide_eq_true ((slowFlag_eq ramp).symm.trans slow)
  rw [rampGate_iff]
  exact ⟨fun ⟨_, fires⟩ => fires.resolve_left (by omega), fun fires => ⟨nonzero, .inr fires⟩⟩

/-! ## A coefficient after a call (R175, R176) -/

/-- What a call that processes `c` samples makes of K1 or K2: one function of the coefficient and its ramp
(`envelope_counting`). -/
def rampedCoefficient (level : Hword) (ramp : Word) (filtCount : Byte) (c : Nat) : Hword :=
  if rampGate ramp filtCount then ramped level (ramp.extractLsb' 0 8) c else level

theorem toNat_rampedCoefficient_of_fires (level : Hword) {ramp : Word} {filtCount : Byte} (c : Nat)
    (fires : rampGate ramp filtCount = true) : ((rampedCoefficient level ramp filtCount c).toNat : Int)
      = max 0 (min 65535 ((level.toNat : Int) + (ramp.extractLsb' 0 8).toInt * c)) := by
  rw [rampedCoefficient, if_pos fires, toNat_ramped]

theorem rampedCoefficient_of_not_fires (level : Hword) {ramp : Word} {filtCount : Byte} (c : Nat)
    (fires : ¬ rampGate ramp filtCount = true) : rampedCoefficient level ramp filtCount c = level :=
  if_neg fires

theorem toInt_rampDelta (ramp : Word) : (ramp.extractLsb' 0 8).toInt = signed8 (ramp.toNat % 256) := by
  rw [toInt_byte, BitVec.extractLsb'_toNat, Nat.shiftRight_zero]

/-! ## One call -/

theorem envelope_done {v : Voice} (n : Nat) (done : v.ecount = 0) : envelope v n = v := if_pos done

theorem envelope_counting {v : Voice} (n : Nat) (counting : v.ecount ≠ 0) :
    envelope v n =
      let c := min v.ecount.toNat n
      { v with
        ecount := v.ecount - BitVec.ofNat 9 c
        filtCount := v.filtCount + BitVec.ofNat 8 c
        lvol := ramped v.lvol v.lvramp c
        rvol := ramped v.rvol v.rvramp c
        k1 := rampedCoefficient v.k1 v.k1ramp v.filtCount c
        k2 := rampedCoefficient v.k2 v.k2ramp v.filtCount c } := if_neg counting

theorem envelope_k1 {v : Voice} (n : Nat) (counting : v.ecount ≠ 0) :
    (envelope v n).k1 = rampedCoefficient v.k1 v.k1ramp v.filtCount (min v.ecount.toNat n) := by
  rw [envelope_counting n counting]

theorem envelope_k2 {v : Voice} (n : Nat) (counting : v.ecount ≠ 0) :
    (envelope v n).k2 = rampedCoefficient v.k2 v.k2ramp v.filtCount (min v.ecount.toNat n) := by
  rw [envelope_counting n counting]

/-- The counter falls by no more than it holds (R173). -/
theorem toNat_sub_ofNat_of_le {x : BitVec 9} {c : Nat} (le : c ≤ x.toNat) :
    (x - BitVec.ofNat 9 c).toNat = x.toNat - c := by
  have := x.isLt
  rw [BitVec.toNat_sub, BitVec.toNat_ofNat]
  omega

/-- The slow-ramp counter wraps (R177). -/
theorem toNat_add_ofNat_byte (x : Byte) (c : Nat) : (x + BitVec.ofNat 8 c).toNat = (x.toNat + c) % 256 := by
  rw [BitVec.toNat_add, BitVec.toNat_ofNat, Nat.add_mod_mod]

theorem toNat_envelope_ecount (v : Voice) (n : Nat) :
    (envelope v n).ecount.toNat = v.ecount.toNat - min v.ecount.toNat n := by
  by_cases done : v.ecount = 0
  · rw [envelope_done n done, done]
    simp
  · rw [envelope_counting n done]
    exact toNat_sub_ofNat_of_le (Nat.min_le_left ..)

theorem toNat_envelope_filtCount (v : Voice) (n : Nat) :
    (envelope v n).filtCount.toNat = (v.filtCount.toNat + min v.ecount.toNat n) % 256 := by
  by_cases done : v.ecount = 0
  · rw [envelope_done n done, done]
    simp [Nat.mod_eq_of_lt v.filtCount.isLt]
  · rw [envelope_counting n done]
    exact toNat_add_ofNat_byte ..

/-- Settles O53: the fields are those of `envelope_counting`, the values those of `toNat_ramped` behind the gate of
`rampGate_iff`. -/
theorem envelopeStep : Obligations.EnvelopeStep := by
  unfold Obligations.EnvelopeStep
  intro v n
  refine ⟨envelope_done n, fun counting => ⟨_, _, _, _, _, _, envelope_counting n counting,
    toNat_sub_ofNat_of_le (Nat.min_le_left ..), toNat_add_ofNat_byte .., ?_⟩⟩
  intro c s8 ramp fires
  have moves (level : Hword) {k : Word} (h : fires k) :
      ((rampedCoefficient level k v.filtCount (min v.ecount.toNat n)).toNat : Int) = ramp level (k.toNat % 256) := by
    rw [toNat_rampedCoefficient_of_fires _ _ ((rampGate_iff ..).mpr h), toInt_rampDelta]
    rfl
  have stays (level : Hword) {k : Word} (h : ¬ fires k) :
      rampedCoefficient level k v.filtCount (min v.ecount.toNat n) = level :=
    rampedCoefficient_of_not_fires _ _ (mt (rampGate_iff ..).mp h)
  exact ⟨toNat_ramped_signed8 .., toNat_ramped_signed8 .., moves v.k1, stays v.k1, moves v.k2, stays v.k2⟩

/-! ## A run of single calls (R179) -/

theorem toNat_ecount_iterate (v : Voice) (j : Nat) :
    ((fun w => envelope w 1)^[j] v).ecount.toNat = v.ecount.toNat - j := by
  induction j with
  | zero => rfl
  | succ j ih =>
    rw [Function.iterate_succ_apply', toNat_envelope_ecount, ih]
    omega

/-- While the envelope counts, every call advances the slow-ramp counter by one. -/
theorem toNat_filtCount_iterate (v : Voice) {j : Nat} (le : j ≤ v.ecount.toNat) :
    ((fun w => envelope w 1)^[j] v).filtCount.toNat = (v.filtCount.toNat + j) % 256 := by
  induction j with
  | zero => exact (Nat.mod_eq_of_lt v.filtCount.isLt).symm
  | succ j ih =>
    rw [Function.iterate_succ_apply', toNat_envelope_filtCount, toNat_ecount_iterate, ih (by omega)]
    omega

theorem plays_iterate_envelope (v : Voice) (j : Nat) : Plays v ((fun w => envelope w 1)^[j] v) := by
  induction j with
  | zero => exact Plays.refl v
  | succ j ih =>
    rw [Function.iterate_succ_apply']
    exact ih.trans (plays_envelope _ 1)

/-- A slow ramp at a counter congruent to `j` modulo 8: the gate is tested once for all `c` samples. -/
theorem toNat_rampedCoefficient_slow (level : Hword) {ramp : Word} {filtCount : Byte} {j : Nat} (c : Nat)
    (slow : ramp.getLsbD 31 = true) (sample : filtCount.toNat % 8 = j % 8) :
    ((rampedCoefficient level ramp filtCount c).toNat : Int) =
      if j % 8 = 0 then max 0 (min 65535 ((level.toNat : Int) + (ramp.extractLsb' 0 8).toInt * c))
      else level.toNat := by
  have gate := rampGate_slow_iff slow filtCount
  rw [sample] at gate
  split
  case isTrue fires => exact toNat_rampedCoefficient_of_fires level c (gate.mpr fires)
  case isFalse silent => rw [rampedCoefficient_of_not_fires level c (mt gate.mp silent)]

/-- K1 or K2 as `after c`, the coefficient after a call that processes `c` of the `left` samples: one sample is the case
`c = 1` of the catch-up. -/
theorem slowRamp_cadence {after : Nat → Hword} {level : Hword} {ramp : Word} {filtCount : Byte} {j left : Nat}
    (counting : 0 < left) (sample : filtCount.toNat % 8 = j % 8) (slow : ramp.getLsbD 31 = true)
    (coefficient : ∀ c, after c = rampedCoefficient level ramp filtCount (min left c)) :
    (j % 8 ≠ 0 → after 1 = level)
      ∧ (j % 8 = 0 → ((after 1).toNat : Int)
          = max 0 (min 65535 ((level.toNat : Int) + (ramp.extractLsb' 0 8).toInt)))
      ∧ ∀ c, c ≤ left → ((after c).toNat : Int) =
          if j % 8 = 0 then max 0 (min 65535 ((level.toNat : Int) + (ramp.extractLsb' 0 8).toInt * c))
          else level.toNat := by
  have processed (c : Nat) (le : c ≤ left) : after c = rampedCoefficient level ramp filtCount c := by
    rw [coefficient, Nat.min_eq_right le]
  have value (c : Nat) := toNat_rampedCoefficient_slow level c slow sample
  refine ⟨fun silent => ?_, fun fires => ?_, fun c le => by rw [processed c le, value]⟩
  · rw [processed 1 counting]
    exact BitVec.eq_of_toNat_eq (Int.ofNat_inj.mp ((value 1).trans (if_neg silent)))
  · rw [processed 1 counting, value, if_pos fires, Nat.cast_one, mul_one]

/-- Settles O54: after `j` single calls the voice still counts, its slow-ramp counter is `j` modulo 256, and its ramps
are as they were; the rest is said of one coefficient, for K1 and K2 alike (`slowRamp_cadence`). -/
theorem slowRampFiresOneInEight : Obligations.SlowRampFiresOneInEight := by
  unfold Obligations.SlowRampFiresOneInEight
  intro v j cleared left u s8
  have remaining : u.ecount.toNat = v.ecount.toNat - j := toNat_ecount_iterate v j
  have counting : 0 < u.ecount.toNat := by omega
  have nonzero : u.ecount ≠ 0 := fun done => by simp [done] at counting
  have sample : u.filtCount.toNat % 8 = j % 8 := by
    have counted : u.filtCount.toNat = (v.filtCount.toNat + j) % 256 := toNat_filtCount_iterate v left.le
    have start : v.filtCount.toNat = 0 := congrArg BitVec.toNat cleared
    omega
  have ramps := plays_iterate_envelope v j
  rw [← ramps.k1ramp, ← ramps.k2ramp]
  exact ⟨fun slow => slowRamp_cadence counting sample slow fun c => envelope_k1 c nonzero,
    fun slow => slowRamp_cadence counting sample slow fun c => envelope_k2 c nonzero⟩

end Sys2Proof.Machine
end

section
/-! PROOFS. The loop controller (O48 to O52, spec/44_loop.md R192 to R203): when a boundary is crossed (`crossed_iff`),
what a crossing does in each loop mode (`boundary_of_unlooped` and the lemmas after it), and where it lands
(`toNat_wrapTarget`, `toNat_reflectTarget`). -/

namespace Sys2Proof.Machine

/-! ## Phases modulo the accumulator mask (R2) -/

/-- A masked word is the integer it stands for modulo 2^32, taken modulo the mask plus 1, which divides 2^32. -/
theorem toNat_and_accumMask_of_emod (q : Variant) {x : Word} {z : Int} (word : (x.toNat : Int) = z % 4294967296) :
    ((x &&& q.accumMask).toNat : Int) = z % (q.accumMask.toNat + 1) := by
  have divides : (q.accumMask.toNat + 1 : Int) ∣ 4294967296 := by cases q <;> decide
  rw [toNat_and_accumMask, Int.natCast_emod, word, Int.natCast_add, Nat.cast_one, Int.emod_emod_of_dvd _ divides]

theorem toNat_advance (q : Variant) (v : Voice) :
    ((advance q.accumMask v).accum.toNat : Int)
      = (if v.dir then (v.accum.toNat : Int) - v.freqCount.toNat else v.accum.toNat + v.freqCount.toNat)
        % (q.accumMask.toNat + 1) := by
  refine toNat_and_accumMask_of_emod q ?_
  cases v.dir with
  | false => exact congrArg Int.ofNat (BitVec.toNat_add v.accum v.freqCount)
  | true =>
    have word := BitVec.toNat_sub v.accum v.freqCount
    simp only [if_true]
    omega

/-- R199 forward, R200 in reverse. -/
theorem toNat_wrapTarget (q : Variant) (v : Voice) :
    ((wrapTarget q.accumMask v).toNat : Int)
      = (if v.dir then (v.endAddr.toNat : Int) - (v.start.toNat - v.accum.toNat)
          else v.start.toNat + ((v.accum.toNat : Int) - v.endAddr.toNat)) % (q.accumMask.toNat + 1) := by
  refine toNat_and_accumMask_of_emod q ?_
  cases v.dir with
  | false =>
    have overshoot := BitVec.toNat_sub v.accum v.endAddr
    have target := BitVec.toNat_add v.start (v.accum - v.endAddr)
    simp only [Bool.false_eq_true, if_false]
    omega
  | true =>
    have overshoot := BitVec.toNat_sub v.start v.accum
    have target := BitVec.toNat_sub v.endAddr (v.start - v.accum)
    simp only [if_true]
    omega

/-- R202 forward, R203 in reverse. -/
theorem toNat_reflectTarget (q : Variant) (v : Voice) :
    ((reflectTarget q.accumMask v).toNat : Int)
      = (if v.dir then (v.start.toNat : Int) + (v.start.toNat - v.accum.toNat)
          else v.endAddr.toNat - ((v.accum.toNat : Int) - v.endAddr.toNat)) % (q.accumMask.toNat + 1) := by
  refine toNat_and_accumMask_of_emod q ?_
  cases v.dir with
  | false =>
    have overshoot := BitVec.toNat_sub v.accum v.endAddr
    have target := BitVec.toNat_sub v.endAddr (v.accum - v.endAddr)
    simp only [Bool.false_eq_true, if_false]
    omega
  | true =>
    have overshoot := BitVec.toNat_sub v.start v.accum
    have target := BitVec.toNat_add v.start (v.start - v.accum)
    simp only [if_true]
    omega

/-! ## The boundary test (R193 to R195) -/

theorem crossed_iff (v : Voice) : crossed v = true ↔ v.lei = false
    ∧ if v.dir then v.accum.toNat < v.start.toNat else v.endAddr.toNat < v.accum.toNat := by
  rw [crossed, Bool.and_eq_true, Bool.not_eq_true']
  cases v.dir with
  | false => simp only [Bool.false_eq_true, if_false, decide_eq_true_eq]
  | true => simp only [if_true, decide_eq_true_eq]

theorem boundary_of_not_crossed {v : Voice} (inside : ¬ crossed v = true) (mask : Word) : boundary mask v = v :=
  if_neg inside

theorem boundary_of_lei {v : Voice} (inhibited : v.lei = true) (mask : Word) : boundary mask v = v := by
  refine boundary_of_not_crossed (fun crossing => ?_) mask
  obtain ⟨free, -⟩ := (crossed_iff v).mp crossing
  exact absurd (inhibited.symm.trans free) (by decide)

/-- Settles O48: the masked sum or difference by `toNat_advance`, and each of the three cases denies `crossed_iff`. -/
theorem advanceMovesAndOnlyCrossingsChange : Obligations.AdvanceMovesAndOnlyCrossingsChange := by
  unfold Obligations.AdvanceMovesAndOnlyCrossingsChange
  intro q v
  refine ⟨⟨_, rfl, toNat_advance q v⟩, fun short => boundary_of_not_crossed (fun crossing => ?_) _⟩
  obtain ⟨free, beyond⟩ := (crossed_iff v).mp crossing
  rcases short with inhibited | ⟨forward, within⟩ | ⟨reverse, within⟩
  · exact absurd (inhibited.symm.trans free) (by decide)
  · rw [forward] at beyond
    exact absurd within (Nat.not_le_of_lt beyond)
  · rw [reverse] at beyond
    exact absurd within (Nat.not_le_of_lt beyond)

/-! ## The interrupt request (R196) -/

/-- The control bits a crossing's interrupt request sets. -/
def requestBits (v : Voice) : Hword := if v.irqe then 0x0080 else 0

/-- Further bits set with the request: IRQ is one of them when IRQE is set. -/
theorem or_requestBits_or (v : Voice) (bits : Hword) :
    (v.control ||| requestBits v) ||| bits = v.control ||| (if v.irqe then 0x0080 ||| bits else bits) := by
  rw [BitVec.or_assoc, requestBits]
  cases v.irqe
  · simp only [Bool.false_eq_true, if_false, show (0 : Hword) = 0#16 from rfl, BitVec.zero_or]
  · rfl

/-- The request reaches no control bit but IRQ. -/
theorem requestBits_getLsbD (v : Voice) {bit : Nat} (below : bit < 7) : (requestBits v).getLsbD bit = false := by
  rw [requestBits]
  cases v.irqe
  · exact BitVec.getLsbD_zero
  · interval_cases bit <;> rfl

/-- The voice as a crossing's request leaves it. -/
def requested (v : Voice) : Voice := { v with control := v.control ||| requestBits v }

theorem requestIrq_eq (v : Voice) : requestIrq v = requested v := by
  rw [requestIrq, requested, requestBits]
  cases v.irqe
  · simp only [Bool.false_eq_true, if_false, show (0 : Hword) = 0#16 from rfl, BitVec.or_zero]
  · rfl

theorem requested_getLsbD (v : Voice) {bit : Nat} (below : bit < 7) :
    (requested v).control.getLsbD bit = v.control.getLsbD bit := by
  rw [requested, BitVec.getLsbD_or, requestBits_getLsbD v below, Bool.or_false]

theorem requested_dir (v : Voice) : (requested v).dir = v.dir := requested_getLsbD v (by decide)

theorem requested_loopMode (v : Voice) : (requested v).loopMode = v.loopMode := by
  have ble : (requested v).ble = v.ble := requested_getLsbD v (by decide)
  have lpe : (requested v).lpe = v.lpe := requested_getLsbD v (by decide)
  rw [Voice.loopMode, Voice.loopMode, ble, lpe]

theorem wrapTarget_requested (mask : Word) (v : Voice) : wrapTarget mask (requested v) = wrapTarget mask v := by
  rw [wrapTarget, wrapTarget, requested_dir]
  rfl

theorem reflectTarget_requested (mask : Word) (v : Voice) :
    reflectTarget mask (requested v) = reflectTarget mask v := by
  rw [reflectTarget, reflectTarget, requested_dir]
  rfl

/-! ## A crossing in each loop mode (R197 to R203) -/

/-- Setting a clear bit turns it over, and so does clearing a set one. -/
theorem or_twoPow_of_clear {n bit : Nat} {x : BitVec n} (clear : x.getLsbD bit = false) :
    x ||| BitVec.twoPow n bit = x ^^^ BitVec.twoPow n bit := by
  ext i inside
  by_cases at_bit : i = bit
  · subst at_bit
    simp [← BitVec.getLsbD_eq_getElem, clear]
  · simp [at_bit]

theorem and_not_twoPow_of_set {n bit : Nat} {x : BitVec n} (isSet : x.getLsbD bit = true) :
    x &&& ~~~BitVec.twoPow n bit = x ^^^ BitVec.twoPow n bit := by
  ext i inside
  by_cases at_bit : i = bit
  · subst at_bit
    simp [← BitVec.getLsbD_eq_getElem, isSet, inside]
  · simp [at_bit]

/-- A voice that turns round: bit 6, DIR, turns over, whichever way it ran. -/
theorem setDir_of_forward {v : Voice} (forward : v.dir = false) :
    setDir v = { v with control := v.control ^^^ 0x0040 } :=
  congrArg (fun c => { v with control := c }) (or_twoPow_of_clear forward)

theorem clearDir_of_reverse {v : Voice} (reverse : v.dir = true) :
    clearDir v = { v with control := v.control ^^^ 0x0040 } :=
  congrArg (fun c => { v with control := c }) (and_not_twoPow_of_set reverse)

section
variable {v : Voice} (mask : Word) (crossing : crossed v = true)
include crossing

/-- The request comes first, and does not reach the mode that decides the transition. -/
theorem boundary_of_crossed : boundary mask v = resolve mask (requested v) := by
  rw [boundary, if_pos crossing, requestIrq_eq]

/-- R198. -/
theorem boundary_of_unlooped (mode : v.loopMode = .none) :
    boundary mask v = { v with control := v.control ||| requestBits v ||| 0x0001 } := by
  rw [boundary_of_crossed mask crossing, resolve, requested_loopMode, mode]
  rfl

/-- R199, R200. -/
theorem boundary_of_unidirectional (mode : v.loopMode = .unidirectional) :
    boundary mask v = { v with accum := wrapTarget mask v, control := v.control ||| requestBits v } := by
  rw [boundary_of_crossed mask crossing, resolve, requested_loopMode, mode, wrapTarget_requested]
  rfl

/-- R201. -/
theorem boundary_of_transWave (mode : v.loopMode = .transWave) :
    boundary mask v = { v with
      accum := wrapTarget mask v
      control := ((v.control ||| requestBits v) &&& ~~~0x0018) ||| 0x0004 } := by
  rw [boundary_of_crossed mask crossing, resolve, requested_loopMode, mode, wrapTarget_requested]
  rfl

/-- R202, R203. -/
theorem boundary_of_bidirectional (mode : v.loopMode = .bidirectional) :
    boundary mask v = { v with
      accum := reflectTarget mask v
      control := (v.control ||| requestBits v) ^^^ 0x0040 } := by
  rw [boundary_of_crossed mask crossing, resolve, requested_loopMode, mode, reflectTarget_requested, requested_dir]
  cases dir : v.dir with
  | false => exact setDir_of_forward (v := { requested v with accum := _ }) ((requested_dir v).trans dir)
  | true => exact clearDir_of_reverse (v := { requested v with accum := _ }) ((requested_dir v).trans dir)

end

/-! ## The statements of a crossing -/

theorem stop0_of_control {v : Voice} {others : Hword} (control : v.control = others ||| 0x0001) : v.stop0 = true := by
  rw [Voice.stop0, control, BitVec.getLsbD_or]
  exact Bool.or_true _

theorem stopped_of_stop0 {v : Voice} (stop0 : v.stop0 = true) : v.stopped = true := by
  rw [Voice.stopped, stop0, Bool.true_or]

/-- Settles O49: STOP0 is among the bits that are set, and a stopped voice's batch is `playBatch_stopped`. -/
theorem unloopedCrossingStops : Obligations.UnloopedCrossingStops := by
  unfold Obligations.UnloopedCrossingStops
  intro mask v lei ble lpe beyond w
  have mode : v.loopMode = .none := by rw [Voice.loopMode, ble, lpe]
  have stopped : w.stopped = true := stopped_of_stop0 (stop0_of_control (or_requestBits_or v 0x0001).symm)
  refine ⟨?_, stopped, fun p chip path draws slots => playBatch_stopped p chip path ⟨w, draws⟩ slots stopped⟩
  rw [boundary_of_unlooped mask ((crossed_iff v).mpr ⟨lei, beyond⟩) mode, or_requestBits_or]
  rfl

/-- Settles O50 by `boundary_of_unidirectional`, the landing place by `toNat_wrapTarget`. -/
theorem unidirectionalLoopWraps : Obligations.UnidirectionalLoopWraps := by
  unfold Obligations.UnidirectionalLoopWraps
  intro q v lei ble lpe beyond
  have mode : v.loopMode = .unidirectional := by rw [Voice.loopMode, ble, lpe]
  exact ⟨_, boundary_of_unidirectional _ ((crossed_iff v).mpr ⟨lei, beyond⟩) mode, toNat_wrapTarget q v⟩

/-- The trans-wave bits: LEI lies outside the two that are cleared, so it may be set with the request. -/
theorem transWave_control (v : Voice) :
    ((v.control ||| requestBits v) &&& ~~~0x0018) ||| 0x0004
      = (v.control ||| (if v.irqe then 0x0084 else 0x0004)) &&& 0xFFE7 := by
  have order (x : Hword) : (x &&& ~~~0x0018) ||| 0x0004 = (x ||| 0x0004) &&& 0xFFE7 := by
    rw [BitVec.and_or_distrib_right]
    rfl
  rw [order, or_requestBits_or]
  rfl

/-- A control write clears LEI of the voice it goes to (R36, R242). -/
theorem storeCr_lei (d : Word) (s : State) : ((storeCr d s).voice s.sel).lei = false := by
  rw [storeCr, State.updSel_voice_sel, Voice.lei, crField, BitVec.getLsbD_and]
  exact Bool.and_false _

/-- Settles O51: the transition by `boundary_of_transWave`; it sets LEI, which inhibits every later test
(`boundary_of_lei`) until a control write clears it (`storeCr_lei`). -/
theorem transWaveSpendsItself : Obligations.TransWaveSpendsItself := by
  unfold Obligations.TransWaveSpendsItself
  intro q v lei ble lpe beyond
  have mode : v.loopMode = .transWave := by rw [Voice.loopMode, ble, lpe]
  have spent := boundary_of_transWave q.accumMask ((crossed_iff v).mpr ⟨lei, beyond⟩) mode
  have inhibited : (boundary q.accumMask v).lei = true := by
    rw [spent, Voice.lei, BitVec.getLsbD_or]
    exact Bool.or_true _
  rw [transWave_control] at spent
  exact ⟨_, spent, toNat_wrapTarget q v,
    fun b => boundary_of_lei (v := { boundary q.accumMask v with accum := b }) inhibited _,
    fun d s => ⟨storeCr d s, rfl, storeCr_lei d s⟩⟩

/-- Settles O52 by `boundary_of_bidirectional`, the landing place by `toNat_reflectTarget`. -/
theorem bidirectionalLoopReflects : Obligations.BidirectionalLoopReflects := by
  unfold Obligations.BidirectionalLoopReflects
  intro q v lei ble lpe beyond
  have mode : v.loopMode = .bidirectional := by rw [Voice.loopMode, ble, lpe]
  exact ⟨_, boundary_of_bidirectional _ ((crossed_iff v).mpr ⟨lei, beyond⟩) mode, toNat_reflectTarget q v⟩

end Sys2Proof.Machine
end

section
/-! PROOFS. What a pass does to the accumulator (O38, O40, spec/44_loop.md R205, R206, spec/45_mixer.md R224, R225): the
entry masks it (`enterPass_masked`), every stage keeps it masked (`playBatch_masked`), and of a stopped voice nothing
moves it (`envelope_accum`). -/

namespace Sys2Proof.Machine

/-! ## The stages -/

theorem envelope_accum (v : Voice) (n : Nat) : (envelope v n).accum = v.accum := by
  unfold envelope
  split <;> rfl

theorem envelope_control (v : Voice) (n : Nat) : (envelope v n).control = v.control := by
  unfold envelope
  split <;> rfl

theorem filter_accum (mode : FilterOverflow) (v : Voice) (x : Int) (draws : Nat) :
    (filter mode v x draws).voice.accum = v.accum := by
  have kept := congrArg Voice.accum (filter_withHistory mode v v x draws)
  exact kept

/-- The accumulator has no bit outside the mask (R206). -/
def Masked (mask : Word) (v : Voice) : Prop := v.accum &&& mask = v.accum

theorem Masked.toNat_le {mask : Word} {v : Voice} (masked : Masked mask v) : v.accum.toNat ≤ mask.toNat := by
  rw [← masked, BitVec.toNat_and]
  exact Nat.and_le_right

/-- A stage that leaves the accumulator leaves it masked. -/
theorem Masked.of_accum {mask : Word} {v w : Voice} (masked : Masked mask v) (same : w.accum = v.accum) :
    Masked mask w := by
  rw [Masked, same]
  exact masked

/-- An accumulator that has just been masked. -/
theorem masked_of_accum_and {mask x : Word} {v : Voice} (accum : v.accum = x &&& mask) : Masked mask v := by
  rw [Masked, accum, BitVec.and_assoc, BitVec.and_self]

theorem enterPass_masked (mask : Word) (v : Voice) : Masked mask (enterPass mask v) := masked_of_accum_and rfl

theorem advance_masked (mask : Word) (v : Voice) : Masked mask (advance mask v) := masked_of_accum_and rfl

theorem requestIrq_accum (v : Voice) : (requestIrq v).accum = v.accum := by rw [requestIrq_eq, requested]

theorem resolve_masked {mask : Word} {v : Voice} (masked : Masked mask v) : Masked mask (resolve mask v) := by
  rw [resolve]
  cases v.loopMode with
  | none => exact masked.of_accum (setStop0_accum v)
  | unidirectional => exact masked_of_accum_and rfl
  | transWave => exact masked_of_accum_and rfl
  | bidirectional => cases v.dir <;> exact masked_of_accum_and rfl

theorem boundary_masked {mask : Word} {v : Voice} (masked : Masked mask v) : Masked mask (boundary mask v) := by
  by_cases crossing : crossed v = true
  · rw [boundary, if_pos crossing]
    exact resolve_masked (masked.of_accum (requestIrq_accum v))
  · rwa [boundary_of_not_crossed crossing]

/-- A sample leaves the accumulator masked, on either path: the advance masks it, and only the boundary test follows
that may write it. -/
theorem sample_masked (p : Params) (chip : Nat) (path : Path) (r : Run) (slot : Slot) :
    Masked p.variant.accumMask (sample p chip path r slot).1.voice := by
  cases path with
  | silent => exact boundary_masked ((advance_masked _ _).of_accum (envelope_accum _ _))
  | sound law m =>
    exact boundary_masked ((advance_masked _ _).of_accum ((envelope_accum _ _).trans (filter_accum _ _ _ _)))

theorem playBatch_masked (p : Params) (chip : Nat) (path : Path) {r : Run} (masked : Masked p.variant.accumMask r.voice)
    (slots : List Slot) : Masked p.variant.accumMask (playBatch p chip path r slots).1.voice := by
  induction slots generalizing r with
  | nil => exact masked
  | cons slot slots ih =>
    cases stopped : r.voice.stopped with
    | true =>
      rw [playBatch_stopped _ _ _ _ _ stopped (by simp)]
      exact masked.of_accum (envelope_accum _ _)
    | false =>
      rw [playBatch_cons _ _ _ _ _ _ stopped]
      exact ih (sample_masked p chip path r slot)

/-! ## An active voice after the pass -/

/-- A pass leaves an active voice as its solo batch does, but for the flag the arbiter may clear (R223, R324). -/
theorem generate_voice_active {n : Nat} {s : State} (pos : 0 < n) {v : VoiceIx}
    (active : v.toNat ≤ s.activeVoiceCount.toNat) :
    let solo := (soloBatch s v n (drawsBefore s n v.toNat)).1.voice
    (generate n s).voice v = solo ∨ (generate n s).voice v = clearIrq solo := by
  intro solo
  have mixed : (mixVoices s (List.replicate n ⟨0, 0⟩) s.activeVoices).1.voice v = solo := by
    rw [activeVoices_eq]
    exact mixVoices_voice s n s.activeVoiceCount.isLt (by omega)
  rw [← mixed]
  exact (generate_voice_cases n s pos v).imp_right And.right

/-- Settles O38: the batch ends masked as it was entered, and clearing IRQ leaves the accumulator. -/
theorem accumulatorsMaskedAfterPass : Obligations.AccumulatorsMaskedAfterPass := by
  unfold Obligations.AccumulatorsMaskedAfterPass
  intro n s pos
  refine ⟨generate n s, rfl, fun v active => ?_⟩
  have masked : Masked s.params.variant.accumMask (soloBatch s v n (drawsBefore s n v.toNat)).1.voice :=
    playBatch_masked _ _ _ (enterPass_masked _ _) _
  rcases generate_voice_active pos active with left | left <;> rw [left]
  · exact masked.toNat_le
  · exact (masked.of_accum (clearIrq_accum _)).toNat_le

/-! ## A degenerate loop (R205) -/

/-- At pass entry a degenerate loop gets its STOP0 and no other control bit. -/
theorem enterPass_of_degenerate {v : Voice} (degenerate : v.start = v.endAddr) (mask : Word) :
    enterPass mask v = { v with control := v.control ||| 0x0001, accum := v.accum &&& mask } := by
  rw [enterPass, stopIfDegenerate, if_pos degenerate]
  rfl

/-- A degenerate loop enters the pass stopped and spends it in one envelope call (R229), which writes neither the
control register nor the accumulator. -/
theorem soloBatch_of_degenerate {s : State} {v : VoiceIx} {n : Nat} (pos : 0 < n)
    (degenerate : (s.voice v).start = (s.voice v).endAddr) (draws : Nat) :
    (soloBatch s v n draws).1.voice.control = (s.voice v).control ||| 0x0001
      ∧ (soloBatch s v n draws).1.voice.accum = (s.voice v).accum &&& s.params.variant.accumMask := by
  have entered := enterPass_of_degenerate degenerate s.params.variant.accumMask
  have some_slot : List.replicate n (⟨0, 0⟩ : Slot) ≠ [] := by simpa using pos.ne'
  have stopped : (enterPass s.params.variant.accumMask (s.voice v)).stopped = true :=
    stopped_of_stop0 (stop0_of_control (congrArg Voice.control entered))
  have batch : (soloBatch s v n draws).1.voice
      = envelope (enterPass s.params.variant.accumMask (s.voice v)) n := by
    rw [soloBatch, playBatch_stopped _ _ _ ⟨enterPass _ _, _⟩ _ stopped some_slot, List.length_replicate]
  rw [batch, envelope_control, envelope_accum, entered]
  exact ⟨rfl, rfl⟩

/-- Settles O40: what `soloBatch_of_degenerate` says of the batch, the arbiter keeps but for the IRQ flag, which it can
only clear. -/
theorem degenerateLoopStops : Obligations.DegenerateLoopStops := by
  unfold Obligations.DegenerateLoopStops
  intro n s v pos active degenerate
  obtain ⟨control, accum⟩ := soloBatch_of_degenerate pos degenerate (drawsBefore s n v.toNat)
  have stop0 : (soloBatch s v n (drawsBefore s n v.toNat)).1.voice.stop0 = true := stop0_of_control control
  have irq : (soloBatch s v n (drawsBefore s n v.toNat)).1.voice.irq = (s.voice v).irq := by
    rw [Voice.irq, control, BitVec.getLsbD_or]
    exact Bool.or_false _
  refine ⟨generate n s, rfl, ?_⟩
  rcases generate_voice_active pos active with left | left <;> rw [left]
  · exact ⟨stop0, fun raised => irq ▸ raised, accum⟩
  · refine ⟨(clearIrq_getLsbD _ (by decide)).trans stop0, fun raised => ?_, accum⟩
    rw [clearIrq_irq] at raised
    exact absurd raised (by decide)

end Sys2Proof.Machine
end

section
/-! PROOFS. A batch played in two parts (O45, spec/45_mixer.md R226, R229, R235): without slow ramps one envelope call for
`m + n` samples is a call for `m` and then one for `n` (`envelope_envelope`), so it makes no difference where between two
samples, or in the catch-up of a stopped voice, the batch is cut. -/

namespace Sys2Proof.Machine

/-! ## A level ramped twice (R174, R175) -/

/-- A level moves one way only, so the clamp of the first part is no loss to the second. -/
theorem ramped_ramped (level : Hword) (delta : Byte) (m n : Nat) :
    ramped (ramped level delta m) delta n = ramped level delta (m + n) := by
  have first := toNat_ramped level delta m
  have second := toNat_ramped (ramped level delta m) delta n
  have whole := toNat_ramped level delta (m + n)
  rw [Nat.cast_add, mul_add] at whole
  refine BitVec.eq_of_toNat_eq (Nat.cast_injective (R := Int) ?_)
  rcases le_total 0 delta.toInt with up | down
  · have moved := mul_nonneg up (Int.natCast_nonneg m)
    have moves := mul_nonneg up (Int.natCast_nonneg n)
    omega
  · have moved := mul_nonpos_of_nonpos_of_nonneg down (Int.natCast_nonneg m)
    have moves := mul_nonpos_of_nonpos_of_nonneg down (Int.natCast_nonneg n)
    omega

theorem ramped_zero (level : Hword) (delta : Byte) : ramped level delta 0 = level := by
  have same := toNat_ramped level delta 0
  refine BitVec.eq_of_toNat_eq ?_
  rw [Nat.cast_zero, mul_zero] at same
  omega

theorem rampedCoefficient_zero (level : Hword) (ramp : Word) (filtCount : Byte) :
    rampedCoefficient level ramp filtCount 0 = level := by
  rw [rampedCoefficient, ramped_zero, ite_self]

/-- The gate of a ramp that is not slow does not look at the counter (R175). -/
theorem rampGate_of_fast {ramp : Word} (fast : ramp.getLsbD 31 = false) (filtCount : Byte) :
    rampGate ramp filtCount = (ramp != 0) := by
  rw [rampGate, fast, Bool.not_false, Bool.true_or, Bool.and_true]

theorem rampedCoefficient_rampedCoefficient {ramp : Word} (fast : ramp.getLsbD 31 = false) (level : Hword)
    (filtCount filtCount' : Byte) (m n : Nat) :
    rampedCoefficient (rampedCoefficient level ramp filtCount m) ramp filtCount' n
      = rampedCoefficient level ramp filtCount (m + n) := by
  simp only [rampedCoefficient, rampGate_of_fast fast]
  cases ramp != 0 with
  | true => exact ramped_ramped ..
  | false => rfl

/-! ## Two envelope calls (R171 to R177) -/

/-- The voice after a call that processes `c` samples: the fields of `envelope_counting`. -/
def enveloped (v : Voice) (c : Nat) : Voice :=
  { v with
    ecount := v.ecount - BitVec.ofNat 9 c
    filtCount := v.filtCount + BitVec.ofNat 8 c
    lvol := ramped v.lvol v.lvramp c
    rvol := ramped v.rvol v.rvramp c
    k1 := rampedCoefficient v.k1 v.k1ramp v.filtCount c
    k2 := rampedCoefficient v.k2 v.k2ramp v.filtCount c }

theorem enveloped_zero (v : Voice) : enveloped v 0 = v := by
  simp only [enveloped, ramped_zero, rampedCoefficient_zero, BitVec.sub_zero, BitVec.add_zero]

/-- A finished envelope is no case of its own: it processes no sample. -/
theorem envelope_eq_enveloped (v : Voice) (n : Nat) : envelope v n = enveloped v (min v.ecount.toNat n) := by
  by_cases done : v.ecount = 0
  · have none_left : min v.ecount.toNat n = 0 := by simp [done]
    rw [envelope_done n done, none_left, enveloped_zero]
  · exact envelope_counting n done

theorem envelope_zero (v : Voice) : envelope v 0 = v := by
  rw [envelope_eq_enveloped, Nat.min_zero, enveloped_zero]

/-- Neither coefficient ramp of the voice has its slow flag (R52, R176). -/
structure FastRamps (v : Voice) : Prop where
  k1 : v.k1ramp.getLsbD 31 = false
  k2 : v.k2ramp.getLsbD 31 = false

theorem FastRamps.of_plays {v w : Voice} (fast : FastRamps v) (plays : Plays v w) : FastRamps w :=
  ⟨plays.k1ramp ▸ fast.k1, plays.k2ramp ▸ fast.k2⟩

theorem enveloped_enveloped {v : Voice} (fast : FastRamps v) (m n : Nat) :
    enveloped (enveloped v m) n = enveloped v (m + n) := by
  simp only [enveloped, ramped_ramped, rampedCoefficient_rampedCoefficient fast.k1,
    rampedCoefficient_rampedCoefficient fast.k2, BitVec.ofNat_add, sub_sub, add_assoc]

/-- The second call finds what the first left of the counter, so together they process what one call for both does. -/
theorem envelope_envelope {v : Voice} (fast : FastRamps v) (m n : Nat) :
    envelope (envelope v m) n = envelope v (m + n) := by
  have counts : min v.ecount.toNat m + min (v.ecount.toNat - min v.ecount.toNat m) n = min v.ecount.toNat (m + n) := by
    omega
  rw [envelope_eq_enveloped (envelope v m), toNat_envelope_ecount, envelope_eq_enveloped v m,
    enveloped_enveloped fast, counts, ← envelope_eq_enveloped]

theorem envelope_stopped (v : Voice) (n : Nat) : (envelope v n).stopped = v.stopped := by
  rw [Voice.stopped, Voice.stop0, Voice.stop1, envelope_control]
  rfl

/-! ## Two batches -/

/-- What `playBatch_stopped` says, of no slot too: an envelope call for no sample changes nothing. -/
theorem playBatch_of_stopped (p : Params) (chip : Nat) (path : Path) {r : Run} (stopped : r.voice.stopped = true)
    (slots : List Slot) : playBatch p chip path r slots = (⟨envelope r.voice slots.length, r.draws⟩, slots) := by
  cases slots with
  | nil => rw [playBatch_nil, List.length_nil, envelope_zero]
  | cons slot slots => exact playBatch_stopped _ _ _ _ _ stopped (by simp)

theorem playBatch_append (p : Params) (chip : Nat) (path : Path) {r : Run} (fast : FastRamps r.voice)
    (xs ys : List Slot) :
    playBatch p chip path r (xs ++ ys)
      = ((playBatch p chip path (playBatch p chip path r xs).1 ys).1,
        (playBatch p chip path r xs).2 ++ (playBatch p chip path (playBatch p chip path r xs).1 ys).2) := by
  induction xs generalizing r with
  | nil => rfl
  | cons slot xs ih =>
    cases stopped : r.voice.stopped with
    | true =>
      have still : (Run.mk (envelope r.voice (slot :: xs).length) r.draws).voice.stopped = true :=
        (envelope_stopped ..).trans stopped
      rw [playBatch_of_stopped p chip path stopped, playBatch_of_stopped p chip path stopped,
        playBatch_of_stopped p chip path still, envelope_envelope fast, List.length_append]
    | false =>
      rw [List.cons_append, playBatch_cons _ _ _ _ _ _ stopped, playBatch_cons _ _ _ _ _ _ stopped,
        ih (fast.of_plays (plays_sample ..))]
      rfl

/-- Settles O45: `playBatch_append`, by induction on the first part; where the voice is stopped, the two catch-up calls
are one (`envelope_envelope`). -/
theorem batchSplitsWithoutSlowRamps : Obligations.BatchSplitsWithoutSlowRamps := by
  unfold Obligations.BatchSplitsWithoutSlowRamps
  intro p chip path r xs ys k1 k2
  exact playBatch_append p chip path ⟨k1, k2⟩ xs ys

end Sys2Proof.Machine
end

section
/-! PROOFS. What a pass returns and leaves (O36, O41, O42, spec/45_mixer.md R220 to R230): how many outputs it appends
(`generate_cases`), and two passes whose solo batches are known in full, the one of stopped voices
(`soloBatch_of_stoppedAtEntry`) and the single sample of one sounding voice (`soloBatch_one_sample`). -/

namespace Sys2Proof.Machine

/-! ## The outputs of a pass (R220, R230, R329) -/

theorem toNat_setWidth8 (v : VoiceIx) : (v.setWidth 8).toNat = v.toNat := by
  have := v.isLt
  rw [BitVec.toNat_setWidth]
  omega

/-- Settles O36: `generate_cases` names the outputs and the vector, `mixVoices_length` counts the samples. -/
theorem generateReturnsBuffersAndLatchesOnce : Obligations.GenerateReturnsBuffersAndLatchesOnce := by
  unfold Obligations.GenerateReturnsBuffersAndLatchesOnce
  intro n s
  rcases Nat.eq_zero_or_pos n with rfl | pos
  · exact ⟨generate 0 s, [], [], [], rfl, by rw [List.append_nil]; rfl, rfl, rfl, .inl ⟨rfl, rfl⟩⟩
  · have length (side : Slot → Word) :
        ((mixVoices s (List.replicate n ⟨0, 0⟩) s.activeVoices).2.map side).length = n := by
      rw [List.length_map, mixVoices_length, List.length_replicate]
    rcases generate_cases n s pos with ⟨-, e⟩ | ⟨v, active, free, -, -, e⟩
    · refine ⟨generate n s, _, _, [], rfl, ?_, length Slot.left, length Slot.right, .inl ⟨rfl, ?_⟩⟩
      · rw [e, List.append_nil]
      · rw [e]
    · refine ⟨generate n s, _, _, [.irqLine true], rfl, ?_, length Slot.left, length Slot.right,
        .inr ⟨rfl, free, ?_⟩⟩
      · rw [e]
      · rw [e]
        exact (toNat_setWidth8 v).trans_le ((mem_activeVoices s v).mp active)

/-! ## A pass of stopped voices (R229, R234) -/

/-- A voice stopped by a stop bit or by a degenerate loop: one the entry of a pass leaves stopped (R205, R224). -/
def StoppedAtEntry (v : Voice) : Prop := v.stopped = true ∨ v.start = v.endAddr

/-- The engine clears no stop bit (R208). -/
theorem Plays.stopped {v w : Voice} (plays : Plays v w) (stopped : v.stopped = true) : w.stopped = true := by
  rw [Voice.stopped, Bool.or_eq_true] at stopped ⊢
  exact stopped.imp (plays.stays 0 (by decide)) (plays.stays 1 (by decide))

theorem enterPass_stopped {v : Voice} (atEntry : StoppedAtEntry v) (mask : Word) :
    (enterPass mask v).stopped = true := by
  rcases atEntry with stopped | degenerate
  · exact (plays_enterPass mask v).stopped stopped
  · exact stopped_of_stop0 (stop0_of_control (congrArg Voice.control (enterPass_of_degenerate degenerate mask)))

theorem soloBatch_of_stoppedAtEntry {s : State} {v : VoiceIx} (atEntry : StoppedAtEntry (s.voice v)) (n draws : Nat) :
    soloBatch s v n draws
      = (⟨envelope (enterPass s.params.variant.accumMask (s.voice v)) n, draws⟩, List.replicate n ⟨0, 0⟩) := by
  have stopped : (Run.mk (enterPass s.params.variant.accumMask (s.voice v)) draws).voice.stopped = true :=
    enterPass_stopped atEntry _
  rw [soloBatch, playBatch_of_stopped _ _ _ stopped, List.length_replicate]

/-- Solo batches that add nothing sum to a zeroed buffer. -/
theorem summedSolos_of_zeroed {s : State} {n : Nat} {first : VoiceIx → Nat} {side : Slot → Word}
    (channel : Channel side)
    (zeroed : ∀ v ∈ s.activeVoices, (soloBatch s v n (first v)).2 = List.replicate n ⟨0, 0⟩) :
    summedSolos s n first side = List.replicate n 0 := by
  refine List.eq_replicate_iff.mpr ⟨by rw [summedSolos, List.length_map, List.length_range], fun x mem => ?_⟩
  obtain ⟨j, -, rfl⟩ := List.mem_map.mp mem
  refine List.sum_eq_zero fun x mem => ?_
  obtain ⟨v, active, rfl⟩ := List.mem_map.mp mem
  rw [zeroed v active, sampleAt_zeroed channel]

/-- The arbiter's part of `generate_voice_active` hidden: it may clear IRQ, and no more. -/
theorem clearIrq_generate_voice {n : Nat} {s : State} (pos : 0 < n) {v : VoiceIx}
    (active : v.toNat ≤ s.activeVoiceCount.toNat) :
    clearIrq ((generate n s).voice v) = clearIrq (soloBatch s v n (drawsBefore s n v.toNat)).1.voice := by
  rcases generate_voice_active pos active with left | left <;> rw [left]
  exact clearIrq_clearIrq _

/-- Settles O42: every solo batch is that of `soloBatch_of_stoppedAtEntry`, which adds nothing and runs the envelope. -/
theorem stoppedVoicesAreSilent : Obligations.StoppedVoicesAreSilent := by
  unfold Obligations.StoppedVoicesAreSilent
  intro n s pos atEntry
  have zeroed : ∀ v ∈ s.activeVoices,
      (soloBatch s v n (drawsBefore s n v.toNat)).2 = List.replicate n ⟨0, 0⟩ := fun v active => by
    rw [soloBatch_of_stoppedAtEntry (atEntry v ((mem_activeVoices s v).mp active))]
  refine ⟨generate n s, rfl, ?_, fun v active => ?_⟩
  · rw [generate_buffers s pos, summedSolos_of_zeroed channel_left zeroed, summedSolos_of_zeroed channel_right zeroed]
  · rw [clearIrq_generate_voice pos active, soloBatch_of_stoppedAtEntry (atEntry v active)]

/-! ## One sample of one voice (R226) -/

/-- A voice that is not stopped and whose loop is not degenerate enters a pass with its accumulator masked and nothing
else changed (R224, R225). -/
theorem enterPass_of_proper {v : Voice} (proper : v.start ≠ v.endAddr) (mask : Word) :
    enterPass mask v = { v with accum := v.accum &&& mask } := by
  rw [enterPass, stopIfDegenerate, if_neg proper]

theorem pathOf_of_present {p : Params} {v : Voice} {m : Memory} (present : regionOf p v.bank = some m) :
    pathOf p v = .sound v.cmpd m := by
  rw [pathOf, present]

/-- The solo batch of one sample is that sample, taken of the voice as it enters the pass. -/
theorem soloBatch_one_sample {s : State} {v : VoiceIx} {m : Memory} (playing : (s.voice v).stopped = false)
    (proper : (s.voice v).start ≠ (s.voice v).endAddr) (present : regionOf s.params (s.voice v).bank = some m)
    (draws : Nat) :
    let entered : Voice := { s.voice v with accum := (s.voice v).accum &&& s.params.variant.accumMask }
    let played := sample s.params s.chips (.sound (s.voice v).cmpd m) ⟨entered, draws⟩ ⟨0, 0⟩
    soloBatch s v 1 draws = (played.1, [played.2]) := by
  intro entered played
  have path : pathOf s.params entered = .sound (s.voice v).cmpd m := pathOf_of_present present
  rw [soloBatch, enterPass_of_proper proper, path]
  exact playBatch_cons _ _ _ ⟨entered, draws⟩ _ [] playing

theorem activeVoices_of_one {s : State} (one : s.activeVoiceCount = 0) : s.activeVoices = [0] := by
  rw [State.activeVoices, one]
  rfl

/-- With voice 0 alone active a buffer of one sample is what voice 0 adds to 0. -/
theorem summedSolos_of_one {s : State} (one : s.activeVoiceCount = 0) {first : VoiceIx → Nat} {side : Slot → Word}
    {slot : Slot} (solo : (soloBatch s 0 1 (first 0)).2 = [slot]) : summedSolos s 1 first side = [side slot] := by
  rw [summedSolos, activeVoices_of_one one, List.range_one, List.map_singleton, List.map_singleton,
    List.sum_singleton, solo]
  rfl

/-- Accumulation into a zeroed slot (R222, R228). -/
theorem addTo_zeroed (t : VolumeLookup) (y : Int) (v : Voice) :
    addTo t y v ⟨0, 0⟩ = ⟨BitVec.ofInt 32 (contribution t y v.lvol), BitVec.ofInt 32 (contribution t y v.rvol)⟩ :=
  congrArg₂ Slot.mk (zero_add _) (zero_add _)

/-- Settles O41: the pass is voice 0's solo batch, which is one sample (`soloBatch_one_sample`), and `sample` runs the
stages in the order stated. -/
theorem oneSampleInOrder : Obligations.OneSampleInOrder := by
  unfold Obligations.OneSampleInOrder
  intro s m one playing proper present mask v a0 x moved f w
  have solo : soloBatch s 0 1 s.filterDraws = (⟨boundary mask w, f.draws⟩,
      [⟨BitVec.ofInt 32 (contribution s.params.volumeLookup f.y w.lvol),
        BitVec.ofInt 32 (contribution s.params.volumeLookup f.y w.rvol)⟩]) := by
    rw [← addTo_zeroed]
    exact soloBatch_one_sample playing proper present s.filterDraws
  refine ⟨generate 1 s, rfl, ?_, ?_, ?_, fun u other => ?_⟩
  · have slots := congrArg Prod.snd solo
    rw [generate_buffers s one_pos, summedSolos_of_one one slots, summedSolos_of_one one slots]
  · exact (clearIrq_generate_voice one_pos (Nat.zero_le _)).trans (congrArg (fun batch => clearIrq batch.1.voice) solo)
  · rw [generate_filterDraws s one_pos, one]
    exact congrArg (fun batch => batch.1.draws) solo
  · refine generate_voice_inactive 1 s u ?_
    rw [one]
    exact Nat.pos_of_ne_zero fun zero => other (BitVec.eq_of_toNat_eq zero)

end Sys2Proof.Machine
end

section
/-! PROOFS. A register number names one operation (O20, O21, spec/30_encoding.md R91, R92, spec/47_register_bus.md R240,
R241): the decoder's tables and the register maps are two descriptions of the same rows (`exec_writeInstr`,
`exec_readInstr`). -/

namespace Sys2Proof.Machine

/-- Settles O20: RegWrite is `writeReg` of the register in the group the page selects now. -/
theorem registerWriteDispatch : Obligations.RegisterWriteDispatch := by
  unfold Obligations.RegisterWriteDispatch
  intro reg d s
  exact exec_writeInstr s.groupBits reg d s

/-- A peek of IRQV is the vector, not acknowledged (R241). -/
theorem peekReg_irqv (s : State) : peekReg .irqv s = BitVec.ofNat 32 s.irqVector.toNat :=
  (BitVec.ofNat_toNat 32 s.irqVector).symm

/-- A peek of PAR calls no port (R241). -/
theorem peekReg_par (s : State) : peekReg .par s = 0 := rfl

/-- Settles O21: a register other than IRQV and PAR is read as it is peeked (`readReg_pure`). -/
theorem registerReadDispatch : Obligations.RegisterReadDispatch := by
  unfold Obligations.RegisterReadDispatch
  intro reg s
  refine ⟨exec_readInstr s.groupBits reg s, fun irqv => ?_, fun par => ?_, fun notIrqv notPar => ?_⟩
  · rw [regPeek, irqv, peekReg_irqv]
  · rw [regPeek, par, peekReg_par]
  · exact readReg_pure (s.regNow reg) s notIrqv notPar

end Sys2Proof.Machine
end

section
/-! PROOFS. The fields of the register word as numbers (spec/30_encoding.md R96, R97): what a write stores of the data
word, and the word a read returns a field in. -/

namespace Sys2Proof.Machine

/-! ## On write (R96) -/

/-- A field of a word is the number above its lowest bit, modulo its width. -/
theorem extractLsb'_eq_ofNat {n : Nat} (d : BitVec n) (low width : Nat) :
    d.extractLsb' low width = BitVec.ofNat width (d.toNat / 2 ^ low) := by
  rw [BitVec.extractLsb', Nat.shiftRight_eq_div_pow]

/-- A field that begins at bit 0. -/
theorem extractLsb'_zero_eq_ofNat {n : Nat} (d : BitVec n) (width : Nat) :
    d.extractLsb' 0 width = BitVec.ofNat width d.toNat := by
  rw [extractLsb'_eq_ofNat, pow_zero, Nat.div_one]

theorem lowField_eq (d : Word) : lowField d = BitVec.ofNat 16 d.toNat := extractLsb'_zero_eq_ofNat d 16

theorem rampField_eq (d : Word) : rampField d = BitVec.ofNat 8 (d.toNat / 256) := extractLsb'_eq_ofNat d 8 8

theorem ecountField_eq (d : Word) : ecountField d = BitVec.ofNat 9 d.toNat := extractLsb'_zero_eq_ofNat d 9

theorem fiveField_eq (d : Word) : fiveField d = BitVec.ofNat 5 d.toNat := extractLsb'_zero_eq_ofNat d 5

theorem sevenField_eq (d : Word) : sevenField d = BitVec.ofNat 7 d.toNat := extractLsb'_zero_eq_ofNat d 7

theorem crField_eq (d : Word) : crField d = d.setWidth 16 &&& 0xFFFB := by
  rw [crField, extractLsb'_zero_eq_ofNat, BitVec.ofNat_toNat]

/-- The bits of the stored CR: those of the data word, but LEI (R242). -/
theorem crField_getLsbD (d : Word) {bit : Nat} (inside : bit < 16) :
    (crField d).getLsbD bit = (d.getLsbD bit && bit != 2) := by
  have mask : (0xFFFB : Hword).getLsbD bit = (bit != 2) := by interval_cases bit <;> rfl
  rw [crField_eq, BitVec.getLsbD_and, BitVec.getLsbD_setWidth, mask]
  simp [inside]

/-- The slow flag and the delta where R250 puts them: bit 31 and bits 7:0. -/
theorem kRampField_eq (d : Word) : kRampField d = ((d &&& 1) <<< 31) ||| ((d >>> 8) &&& 0xFF) := by
  have flag : (d &&& 1).toNat = d.toNat % 2 := toNat_and_lowMask (k := 1) d rfl
  have delta : ((d >>> 8) &&& 0xFF).toNat = (d >>> 8).toNat % 256 := toNat_and_lowMask (k := 8) _ rfl
  have fits : (d.toNat % 2) <<< 31 < 2 ^ 32 := by
    rw [Nat.shiftLeft_eq]
    omega
  apply BitVec.eq_of_toNat_eq
  rw [kRampField, BitVec.toNat_append, BitVec.toNat_append, BitVec.extractLsb'_toNat, BitVec.extractLsb'_toNat,
    BitVec.toNat_or, BitVec.toNat_shiftLeft, flag, delta, BitVec.toNat_ushiftRight, Nat.mod_eq_of_lt fits]
  rw [Nat.shiftRight_zero, show (0#23).toNat = 0 from rfl, Nat.or_zero, ← Nat.shiftLeft_add]

/-- The signed value of bits 17:0 (R8). -/
theorem sext18_eq (d : Word) :
    sext18 d = BitVec.ofInt 32 (if d.toNat % 262144 < 131072 then ((d.toNat % 262144 : Nat) : Int)
      else ((d.toNat % 262144 : Nat) : Int) - 262144) := by
  rw [sext18, BitVec.signExtend, BitVec.toInt_eq_toNat_cond, BitVec.extractLsb'_toNat, Nat.shiftRight_zero]
  congr 1
  split <;> split <;> omega

/-! ## On read (R97) -/

theorem rampWord_eq (r : Byte) : rampWord r = BitVec.ofNat 32 (r.toNat * 256) := by
  apply BitVec.eq_of_toNat_eq
  rw [rampWord, BitVec.toNat_shiftLeft, BitVec.toNat_setWidth_of_le (by decide), BitVec.toNat_ofNat, Nat.shiftLeft_eq]

/-- The delta and the slow flag do not overlap, so their union is their sum. -/
theorem kRampWord_eq (k : Word) :
    kRampWord k = BitVec.ofNat 32 (k.toNat % 256 * 256 + k.toNat / 2147483648) := by
  have delta : (k &&& 0xFF).toNat = k.toNat % 256 := toNat_and_lowMask (k := 8) k rfl
  have flag : k.toNat / 2147483648 < 2 ^ 8 := by omega
  have fits : (k.toNat % 256) <<< 8 < 2 ^ 32 := by
    rw [Nat.shiftLeft_eq]
    omega
  apply BitVec.eq_of_toNat_eq
  rw [kRampWord, BitVec.toNat_or, BitVec.toNat_shiftLeft, delta, Nat.mod_eq_of_lt fits, BitVec.toNat_ushiftRight,
    Nat.shiftRight_eq_div_pow, ← Nat.shiftLeft_add_eq_or_of_lt flag, Nat.shiftLeft_eq, BitVec.toNat_ofNat]
  exact (Nat.mod_eq_of_lt (by omega)).symm

theorem historyWord_eq (o : Word) : historyWord o = BitVec.ofNat 32 (o.toNat % 262144) := by
  apply BitVec.eq_of_toNat_eq
  rw [historyWord, toNat_and_lowMask (k := 18) o rfl, BitVec.toNat_ofNat]
  exact (Nat.mod_eq_of_lt (by omega)).symm

end Sys2Proof.Machine
end

section
/-! PROOFS. The writes of the chip's own registers and the ignored writes (O11, O12, O13, spec/47_register_bus.md R253 to
R257, R267 to R270), and that no pass reads MODE, W_ST, W_END or LR_END. -/

namespace Sys2Proof.Machine

/-! ## The page a write selects (R257) -/

theorem toNat_sel_storePage (d : Word) (s : State) : (storePage d s).sel.toNat = d.toNat % 32 := by
  rw [State.sel, storePage_currentPage, sevenField_eq, BitVec.extractLsb'_toNat, BitVec.toNat_ofNat,
    Nat.shiftRight_zero]
  omega

theorem groupBits_storePage (d : Word) (s : State) :
    (storePage d s).groupBits = BitVec.ofNat 2 (d.toNat / 32) := by
  apply BitVec.eq_of_toNat_eq
  rw [State.groupBits, storePage_currentPage, sevenField_eq, BitVec.extractLsb'_toNat, BitVec.toNat_ofNat,
    BitVec.toNat_ofNat, Nat.shiftRight_eq_div_pow]
  omega

/-! ## The registers no pass reads (R254, R267 to R269) -/

/-- `s` with other values in the four registers that are only stored and read back (R27, R28). -/
def State.withUnread (s : State) (m : BitVec 5) (a b c : BitVec 7) : State :=
  { s with mode := m, wst := a, wend := b, lrend := c }

section
variable (m : BitVec 5) (a b c : BitVec 7)

theorem voiceBatch_withUnread (s : State) (v : VoiceIx) (slots : List Slot) :
    voiceBatch (s.withUnread m a b c) v slots
      = ((voiceBatch s v slots).1.withUnread m a b c, (voiceBatch s v slots).2) := rfl

theorem mixVoices_withUnread (vs : List VoiceIx) (s : State) (slots : List Slot) :
    mixVoices (s.withUnread m a b c) slots vs
      = ((mixVoices s slots vs).1.withUnread m a b c, (mixVoices s slots vs).2) := by
  induction vs generalizing s slots with
  | nil => rfl
  | cons v vs ih =>
    rw [mixVoices, voiceBatch_withUnread]
    exact ih _ _

theorem arbitrateVoice_withUnread (s : State) (v : VoiceIx) :
    arbitrateVoice (s.withUnread m a b c) v = (arbitrateVoice s v).withUnread m a b c := by
  rw [arbitrateVoice, arbitrateVoice, apply_ite (State.withUnread · m a b c)]
  rfl

theorem arbitrate_withUnread (s : State) :
    arbitrate (s.withUnread m a b c) = (arbitrate s).withUnread m a b c :=
  List.foldl_hom (State.withUnread · m a b c) fun t v => arbitrateVoice_withUnread m a b c t v

/-- A pass neither reads nor writes the four registers. -/
theorem generate_withUnread (n : Nat) (s : State) :
    generate n (s.withUnread m a b c) = (generate n s).withUnread m a b c := by
  rcases Nat.eq_zero_or_pos n with rfl | pos
  · rfl
  · have active : (s.withUnread m a b c).activeVoices = s.activeVoices := rfl
    rw [generate_pos n _ pos, generate_pos n s pos, active, mixVoices_withUnread, arbitrate_withUnread]
    rfl

end

/-! ## The statements -/

/-- Settles O12: the stores by their fields, the selection after PAGE, and `generate_withUnread`. -/
theorem chipRegisterWrites : Obligations.ChipRegisterWrites := by
  unfold Obligations.ChipRegisterWrites
  intro d s g
  rw [← sevenField_eq d, ← fiveField_eq d]
  exact ⟨rfl, rfl, rfl, rfl, rfl, rfl, rfl, toNat_sel_storePage d s,
    fun reg => congrArg (fun bits => regAt (pageGroup bits) reg) (groupBits_storePage d s),
    fun n m a b c => ⟨generate n s, rfl, congrArg Host.Outcome.next (generate_withUnread m a b c n s)⟩⟩

/-- Settles O11: the rate is that of the count stored, d mod 32. -/
theorem activeCountWriteAnnouncesRate : Obligations.ActiveCountWriteAnnouncesRate := by
  unfold Obligations.ActiveCountWriteAnnouncesRate
  intro d s
  have count : (fiveField d).toNat = d.toNat % 32 := by rw [fiveField_eq, BitVec.toNat_ofNat]
  rw [← fiveField_eq d, ← count]
  rfl

/-- Settles O13: each of these rows answers the state it was given. -/
theorem ignoredWrites : Obligations.IgnoredWrites := by
  unfold Obligations.IgnoredWrites
  intro d s g r3 r2 r1
  exact ⟨rfl, rfl, rfl, rfl, rfl, rfl, rfl, rfl⟩

end Sys2Proof.Machine
end

section
/-! PROOFS. The writes that reach one voice (O7 to O10, O27, spec/47_register_bus.md R242 to R252, R258 to R266, R304):
each is one `setVoice`, whose frame is said once. -/

namespace Sys2Proof.Machine

theorem sameChip_setVoice (s : State) (v : VoiceIx) (x : Voice) : SameChip s (s.setVoice v x) :=
  ⟨rfl, rfl, rfl, rfl, rfl, rfl, rfl, rfl, rfl, rfl, rfl, rfl, rfl, rfl⟩

/-- An operation that only puts a voice in its place writes that voice and nothing else. -/
theorem writesVoice_of_setVoice {i : Instr} {s : State} {v : VoiceIx} {x : Voice}
    (h : exec i s = .next (s.setVoice v x)) : WritesVoice i s v x :=
  ⟨s.setVoice v x, h, State.voice_setVoice_same s v x, fun _ other => State.voice_setVoice_ne s x other,
    sameChip_setVoice s v x, rfl⟩

/-- Settles O7: the flags are bits 0, 1, 2 and 7 of the stored field (`crField_getLsbD`). -/
theorem controlWriteForcesInhibitOff : Obligations.ControlWriteForcesInhibitOff := by
  unfold Obligations.ControlWriteForcesInhibitOff
  intro d s
  rw [← crField_eq d]
  have bit {k : Nat} (inside : k < 16) (kept : k ≠ 2) : (crField d).getLsbD k = d.getLsbD k := by
    simp [crField_getLsbD d inside, kept]
  refine ⟨writesVoice_of_setVoice rfl, writesVoice_of_setVoice rfl, ?_, bit (by decide) (by decide), ?_⟩
  · exact (crField_getLsbD d (bit := 2) (by decide)).trans (Bool.and_false _)
  · exact congrArg₂ or (bit (by decide) (by decide)) (bit (by decide) (by decide))

/-- Settles O8: the stores of levels keep bits 15:0 (`lowField_eq`), those of addresses the bits of a mask. -/
theorem levelAndAddressWrites : Obligations.LevelAndAddressWrites := by
  unfold Obligations.LevelAndAddressWrites
  intro d s
  rw [← lowField_eq d]
  refine ⟨?lvol, ?rvol, ?k1, ?k2, ?fc, ?start, ?endAddr, ?accum⟩ <;> exact writesVoice_of_setVoice rfl

/-- Settles O9: each store is one `setVoice`, the two fields of ECOUNT among them, of the field R96 names. -/
theorem rampAndEnvelopeCountWrites : Obligations.RampAndEnvelopeCountWrites := by
  unfold Obligations.RampAndEnvelopeCountWrites
  intro d s
  rw [← rampField_eq d, ← kRampField_eq d, ← ecountField_eq d]
  refine ⟨?lvramp, ?rvramp, ?k1ramp, ?k2ramp, ?ecount⟩ <;> exact writesVoice_of_setVoice rfl

/-- Settles O10: the cell stored is the sign extension of bits 17:0 (`sext18_eq`). -/
theorem historyWrites : Obligations.HistoryWrites := by
  unfold Obligations.HistoryWrites
  intro d s low cell
  have stored : cell = sext18 d := (sext18_eq d).symm
  rw [stored]
  refine ⟨?o4n1, ?o3n1, ?o3n2, ?o2n1, ?o2n2, ?o1n1⟩ <;> exact writesVoice_of_setVoice rfl

/-- Settles O27: both sides of the range, by `Completes` and by `Refuses`. -/
theorem bankSelectWrites : Obligations.BankSelectWrites := by
  unfold Obligations.BankSelectWrites
  intro voice value s
  exact ⟨fun inRange => writesVoice_of_setVoice (exec_of_completes (.bankW voice value inRange)),
    fun above => exec_of_refuses (.bankW voice value s above)⟩

end Sys2Proof.Machine
end

section
/-! PROOFS. What the canonical reads return (O14 to O18, spec/47_register_bus.md R271 to R299), and the side effects of
PAR and IRQV. -/

namespace Sys2Proof.Machine

/-- A read without a side effect gives its value and changes nothing else. -/
theorem returnsOnly_of_returned {i : Instr} {s : State} {x : Word} (h : exec i s = .next (returned (x, s))) :
    ReturnsOnly i s x := h

/-- Settles O14: a field of the selected voice is returned zero-extended. -/
theorem voiceFieldReads : Obligations.VoiceFieldReads := by
  unfold Obligations.VoiceFieldReads
  intro s
  simp only [BitVec.ofNat_toNat]
  refine ⟨?crLow, ?crHigh, ?lvol, ?rvol, ?ecount, ?k2, ?k1, ?fc, ?start, ?endAddr, ?accum⟩ <;>
    exact returnsOnly_of_returned rfl

/-- Settles O15: the word of each field is the number R97 gives (`rampWord_eq`, `kRampWord_eq`, `historyWord_eq`). -/
theorem rampAndHistoryReads : Obligations.RampAndHistoryReads := by
  unfold Obligations.RampAndHistoryReads
  intro s
  simp only [← rampWord_eq, ← kRampWord_eq, ← historyWord_eq]
  refine ⟨?lvramp, ?rvramp, ?k1ramp, ?k2ramp, ?o4n1, ?o3n1, ?o3n2, ?o2n1, ?o2n2, ?o1n1⟩ <;>
    exact returnsOnly_of_returned rfl

/-- Settles O16: a chip register is returned zero-extended, a reserved number as 0. -/
theorem chipRegisterReads : Obligations.ChipRegisterReads := by
  unfold Obligations.ChipRegisterReads
  intro s g r3 r2 r1
  simp only [BitVec.ofNat_toNat]
  refine ⟨?actv, ?mode, ?pageLow, ?pageHigh, ?pageTest, ?wst, ?wend, ?lrend, ?rsv0, ?rsv8, ?rsvC⟩ <;>
    exact returnsOnly_of_returned rfl

/-! ## The port (R284) -/

theorem readPar_absent {s : State} (absent : s.params.portRead = false) : readPar s = (0, s) := by
  rw [readPar, absent]
  rfl

theorem readPar_present {s : State} (present : s.params.portRead = true) :
    readPar s = ((Config.portValue s.portReads).setWidth 32, { s with portReads := s.portReads + 1 }) := by
  rw [readPar, present]
  rfl

/-- Settles O17: both rows return `readPar`, with the callback and without. -/
theorem portReadIsFreeOrZero : Obligations.PortReadIsFreeOrZero := by
  unfold Obligations.PortReadIsFreeOrZero
  intro s
  have low : exec .rdLPar s = .next (returned (readPar s)) := rfl
  have high : exec .rdHPar s = .next (returned (readPar s)) := rfl
  constructor
  · intro absent
    rw [readPar_absent absent] at low high
    exact ⟨returnsOnly_of_returned low, returnsOnly_of_returned high⟩
  · intro present
    rw [readPar_present present] at low high
    rw [BitVec.ofNat_toNat]
    exact ⟨low, high⟩

/-! ## The vector (R285) -/

/-- The acknowledging read as a host operation: the line is deasserted before the value is returned. -/
theorem returned_acknowledge (s : State) :
    returned (acknowledge s) = { s with
      irqVector := 0x80
      trace := s.trace ++ [.irqLine false, .readValue (BitVec.ofNat 32 s.irqVector.toNat)] } := by
  have outputs : s.trace ++ [.irqLine false, .readValue (s.irqVector.setWidth 32)]
      = s.trace ++ [.irqLine false] ++ [.readValue (s.irqVector.setWidth 32)] := by simp
  rw [BitVec.ofNat_toNat, outputs]
  rfl

/-- Settles O18: the rows of the three groups are one acknowledging read. -/
theorem vectorReadAcknowledges : Obligations.VectorReadAcknowledges := by
  unfold Obligations.VectorReadAcknowledges
  intro s g
  rw [← returned_acknowledge s]
  exact ⟨rfl, rfl, rfl⟩

end Sys2Proof.Machine
end

section
/-! PROOFS. The 8-bit bus (O22, O23, spec/30_encoding.md R75, R100, spec/47_register_bus.md R300, R301): the lane and the
register of an address as numbers, the committing byte, and the byte a read returns. -/

namespace Sys2Proof.Machine

/-! ## Addresses (R100) -/

theorem toNat_busLane (a : Nat) : (busLane a).toNat = a % 4 := by
  rw [busLane, busAddress, BitVec.extractLsb'_toNat, BitVec.toNat_ofNat, Nat.shiftRight_zero]
  omega

theorem busLane_eq_iff (a : Nat) (lane : BitVec 2) : busLane a = lane ↔ a % 4 = lane.toNat := by
  rw [← BitVec.toNat_inj, toNat_busLane]

theorem busReg_eq (a : Nat) : busReg a = BitVec.ofNat 4 (a % 64 / 4) := by
  rw [busReg, busAddress, extractLsb'_eq_ofNat, BitVec.toNat_ofNat]
  rfl

/-! ## Writes (R300) -/

/-- Byte `k` of the latch after a byte write, counted from the most significant. -/
theorem latchByte_busLane (latch : Word) (a : Nat) (b : Byte) {k : Nat} (inside : k < 4) :
    (latchByte latch (busLane a) b).extractLsb' (8 * (3 - k)) 8
      = if k = a % 4 then b else latch.extractLsb' (8 * (3 - k)) 8 := by
  have number : (BitVec.ofNat 2 k).toNat = k := by rw [BitVec.toNat_ofNat, Nat.mod_eq_of_lt inside]
  have lane := latchByte_lane latch (busLane a) (BitVec.ofNat 2 k) b
  rw [laneShift, number] at lane
  rw [lane]
  refine if_congr ?_ rfl rfl
  rw [eq_comm, busLane_eq_iff, number, eq_comm]

theorem bus8Write_latches {a : Nat} (lane : a % 4 ≠ 3) (b : Byte) (s : State) :
    bus8Write a b s = { s with writeLatch := latchByte s.writeLatch (busLane a) b } :=
  if_neg fun last => lane ((busLane_eq_iff a 3).mp last)

/-- The committing byte: the register write neither reads nor writes the latch. -/
theorem bus8Write_commits {a : Nat} (lane : a % 4 = 3) (b : Byte) (s : State) :
    bus8Write a b s
      = { regWrite (BitVec.ofNat 4 (a % 64 / 4)) (latchByte s.writeLatch (busLane a) b) s with writeLatch := 0 } := by
  rw [bus8Write, if_pos ((busLane_eq_iff a 3).mpr lane), regWrite_withLatch, busReg_eq]

/-- Settles O22: the latch after the byte is `latchByte`, which lanes 0 to 2 keep and lane 3 commits. -/
theorem byteWriteLatchesAndCommits : Obligations.ByteWriteLatchesAndCommits := by
  unfold Obligations.ByteWriteLatchesAndCommits
  intro a b s
  refine ⟨fun wrongWidth => exec_of_refuses (.bus8Wb a b s wrongWidth), fun rightWidth => ?_⟩
  refine ⟨latchByte s.writeLatch (busLane a) b, fun k => latchByte_busLane s.writeLatch a b, fun lane => ?_,
    fun lane => ?_⟩
  · rw [exec_of_completes (.bus8Wb a b rightWidth), bus8Write_latches lane]
  · rw [exec_of_completes (.bus8Wb a b rightWidth), bus8Write_commits lane]

/-! ## Reads (R301) -/

/-- The byte of a word on an address's lane. -/
theorem laneByte_eq (x : Word) (a : Nat) :
    (x >>> laneShift (busLane a)).setWidth 8 = BitVec.ofNat 8 (x.toNat / 256 ^ (3 - a % 4)) := by
  rw [← BitVec.ofNat_toNat, BitVec.toNat_ushiftRight, laneShift, toNat_busLane, Nat.shiftRight_eq_div_pow, pow_mul]
  rfl

/-- What a byte read leaves: the latch filled on lane 0, and the state as it was on the others. -/
theorem bus8Read_state (a : Nat) (s : State) :
    (bus8Read a s).2 = if a % 4 = 0 then
      { (regRead (BitVec.ofNat 4 (a % 64 / 4)) s).2 with readLatch := (regRead (BitVec.ofNat 4 (a % 64 / 4)) s).1 }
      else s := by
  rw [← busReg_eq]
  rcases bus8Read_cases a s with ⟨lane, e⟩ | ⟨lane, e⟩ <;> rw [e]
  · exact (if_pos ((busLane_eq_iff a 0).mp lane)).symm
  · exact (if_neg fun first => lane ((busLane_eq_iff a 0).mpr first)).symm

theorem bus8Read_byte (a : Nat) (s : State) :
    (bus8Read a s).1 = BitVec.ofNat 8 ((bus8Read a s).2.readLatch.toNat / 256 ^ (3 - a % 4)) :=
  laneByte_eq (bus8Read a s).2.readLatch a

/-- Settles O23: the byte returned is that of the latch as the read leaves it. -/
theorem byteReadFillsAndDrains : Obligations.ByteReadFillsAndDrains := by
  unfold Obligations.ByteReadFillsAndDrains
  intro a s
  refine ⟨fun wrongWidth => exec_of_refuses (.bus8Rb a s wrongWidth), fun rightWidth => ?_⟩
  rw [exec_of_completes (.bus8Rb a rightWidth), bus8Read_byte, bus8Read_state]
  rfl

end Sys2Proof.Machine
end

section
/-! PROOFS. The 16-bit bus (O25, O26, spec/30_encoding.md R101, spec/47_register_bus.md R302, R303): the merged word bit by
bit, and the half a read returns. -/

namespace Sys2Proof.Machine

/-! ## The merged word (R302) -/

/-- The written bits: those of the mapped half, in each byte that the lane mask selects (R101). -/
theorem laneBits_getLsbD (h : RegHalf) : ∀ (lanes : BitVec 2) (k : Nat), k < 32 →
    (laneBits h lanes).getLsbD k
      = decide (k / 16 = (if h = .hi then 1 else 0) ∧ lanes.getLsbD (k / 8 % 2) = true) := by
  cases h <;> decide

/-- In the mapped half, the data word stands shifted to its place. -/
theorem shiftedData_getLsbD (h : RegHalf) (data : Hword) {k : Nat} (inside : k < 32)
    (half : k / 16 = if h = .hi then 1 else 0) :
    (data.setWidth 32 <<< halfShift h).getLsbD k = data.getLsbD (k % 16) := by
  cases h with
  | hi =>
    have high : k / 16 = 1 := half
    rw [BitVec.getLsbD_shiftLeft, BitVec.getLsbD_setWidth, halfShift, show k - 16 = k % 16 by omega]
    simp [inside, show ¬ k < 16 by omega, show k % 16 < 32 by omega]
  | lo =>
    have low : k / 16 = 0 := half
    rw [BitVec.getLsbD_shiftLeft, BitVec.getLsbD_setWidth, halfShift, show k - 0 = k % 16 by omega]
    simp [inside, show k % 16 < 32 by omega]

/-- The merged word: a written bit is the data word's, every other one the old word's. -/
theorem mergeLanes_getLsbD (old : Word) (h : RegHalf) (data : Hword) (lanes : BitVec 2) {k : Nat} (inside : k < 32) :
    (mergeLanes old h data lanes).getLsbD k
      = if k / 16 = (if h = .hi then 1 else 0) ∧ lanes.getLsbD (k / 8 % 2) = true then data.getLsbD (k % 16)
        else old.getLsbD k := by
  rw [mergeLanes, BitVec.getLsbD_or, BitVec.getLsbD_and, BitVec.getLsbD_and, BitVec.getLsbD_not,
    laneBits_getLsbD h lanes k inside]
  by_cases written : k / 16 = (if h = .hi then 1 else 0) ∧ lanes.getLsbD (k / 8 % 2) = true
  · rw [shiftedData_getLsbD h data inside written.1, if_pos written, decide_eq_true written]
    simp
  · rw [if_neg written, decide_eq_false written]
    simp [inside]

/-! ## The accesses -/

section
variable {s : State} {off : Nat}

theorem bus16Write_unmapped (unmapped : busLine s.params off = none) (data : Hword) (lanes : BitVec 2) :
    bus16Write off data lanes s = s := by
  rw [bus16Write, unmapped]

theorem bus16Write_mapped {l : BusLine} (mapped : busLine s.params off = some l) (data : Hword) (lanes : BitVec 2) :
    bus16Write off data lanes s = regWrite l.reg (mergeLanes (regPeek l.reg s) l.half data lanes) s := by
  rw [bus16Write, mapped]

theorem bus16Read_unmapped (unmapped : busLine s.params off = none) : bus16Read off s = (0, s) := by
  rw [bus16Read, unmapped]

theorem bus16Read_mapped {l : BusLine} (mapped : busLine s.params off = some l) :
    bus16Read off s = (((regRead l.reg s).1 >>> halfShift l.half).setWidth 16, (regRead l.reg s).2) := by
  rw [bus16Read, mapped]

end

/-- Settles O25: the word committed is `mergeLanes` of the peeked one. -/
theorem wordWriteMergesLanes : Obligations.WordWriteMergesLanes := by
  unfold Obligations.WordWriteMergesLanes
  intro off data lanes s
  refine ⟨fun wrongWidth => exec_of_refuses (.bus16W off data lanes s wrongWidth), fun rightWidth => ?_⟩
  rw [exec_of_completes (.bus16W off data lanes rightWidth)]
  refine ⟨fun unmapped => ?_, fun l mapped => ?_⟩
  · rw [bus16Write_unmapped unmapped]
  · rw [bus16Write_mapped mapped]
    exact ⟨_, fun k => mergeLanes_getLsbD (regPeek l.reg s) l.half data lanes, rfl⟩

/-- A half of a register word as a number (R303). -/
theorem wordHalf_eq (x : Word) (h : RegHalf) :
    (x >>> halfShift h).setWidth 16
      = BitVec.ofNat 16 (if h = .hi then x.toNat / 65536 else x.toNat % 65536) := by
  rw [← BitVec.ofNat_toNat, BitVec.toNat_ushiftRight, Nat.shiftRight_eq_div_pow]
  cases h with
  | hi => rfl
  | lo =>
    apply BitVec.eq_of_toNat_eq
    simp [halfShift]

/-- Settles O26: the half the map names, of one RegRead. -/
theorem wordReadReturnsHalf : Obligations.WordReadReturnsHalf := by
  unfold Obligations.WordReadReturnsHalf
  intro off s
  refine ⟨fun wrongWidth => exec_of_refuses (.bus16R off s wrongWidth), fun rightWidth => ?_⟩
  rw [exec_of_completes (.bus16R off rightWidth)]
  refine ⟨fun unmapped => ?_, fun l mapped => ?_⟩
  · rw [bus16Read_unmapped unmapped]
    rfl
  · rw [bus16Read_mapped mapped, wordHalf_eq]
    rfl

end Sys2Proof.Machine
end

section
/-! PROOFS. Interrupts in a pass (O39, O47, spec/60_exceptions.md R322 to R325, R331): which voice the arbiter latches,
and what becomes of a pending flag. -/

namespace Sys2Proof.Machine

/-! ## The arbiter's choice (R324) -/

/-- The arbiter scans upwards, so the first pending voice it meets is the lowest. -/
theorem arbitrate_of_lowest_pending {s : State} {v : VoiceIx} (free : s.irqVector.getLsbD 7 = true)
    (active : v.toNat ≤ s.activeVoiceCount.toNat) (pending : (s.voice v).irq = true)
    (lowest : ∀ u : VoiceIx, u.toNat < v.toNat → (s.voice u).irq = false) :
    arbitrate s
      = { s.setVoice v (clearIrq (s.voice v)) with
        irqVector := v.setWidth 8
        trace := s.trace ++ [.irqLine true] } := by
  rcases arbitrate_cases s with ⟨idle, -⟩ | ⟨before, u, after, order, none_before, -, found, latched⟩
  · rcases idle with busy | none_pending
    · exact absurd free (ne_true_of_eq_false busy)
    · exact absurd pending (ne_true_of_eq_false (none_pending v ((mem_activeVoices s v).mpr active)))
  · have not_below : ¬ u.toNat < v.toNat := fun below => ne_true_of_eq_false (lowest u below) found
    have not_above : ¬ v.toNat < u.toNat := fun above =>
      ne_true_of_eq_false (none_before v ((mem_before_iff s order v).mpr above)) pending
    obtain rfl : u = v := BitVec.eq_of_toNat_eq (by omega)
    exact latched

theorem arbitrate_of_idle {s : State} (idle : s.irqVector.getLsbD 7 = false
    ∨ ∀ v : VoiceIx, v.toNat ≤ s.activeVoiceCount.toNat → (s.voice v).irq = false) : arbitrate s = s := by
  rcases arbitrate_cases s with ⟨-, unchanged⟩ | ⟨before, v, after, order, -, free, pending, -⟩
  · exact unchanged
  · rcases idle with busy | none_pending
    · exact absurd free (ne_true_of_eq_false busy)
    · have active : v ∈ s.activeVoices := by simp [order]
      exact absurd pending (ne_true_of_eq_false (none_pending v ((mem_activeVoices s v).mp active)))

/-- Settles O47: the latch by `arbitrate_of_lowest_pending`, the rest by `arbitrate_of_idle`; the pass is
`generate_pos`. -/
theorem arbiterLatchesLowestPending : Obligations.ArbiterLatchesLowestPending := by
  unfold Obligations.ArbiterLatchesLowestPending
  intro s
  refine ⟨fun v free active pending lowest => ?_, arbitrate_of_idle,
    fun n pos => congrArg Host.Outcome.next (generate_pos n s pos)⟩
  refine ⟨s.setVoice v (clearIrq (s.voice v)), ?_, State.voice_setVoice_same .., fun w other =>
    State.voice_setVoice_ne s _ other, sameChip_setVoice s v _⟩
  rw [arbitrate_of_lowest_pending free active pending lowest, BitVec.ofNat_toNat]

/-! ## A pending flag over a pass (R323, R331) -/

/-- What a pass does to any voice, in full: a flag the arbiter clears is that of the voice it latched into a free
vector. -/
theorem generate_plays_or_latches (n : Nat) (s : State) (v : VoiceIx) :
    ∃ w, Plays (s.voice v) w ∧ ((generate n s).voice v = w
      ∨ ((generate n s).voice v = clearIrq w ∧ s.irqVector.getLsbD 7 = true
        ∧ (generate n s).irqVector = v.setWidth 8)) := by
  rcases Nat.eq_zero_or_pos n with rfl | pos
  · exact ⟨s.voice v, Plays.refl _, .inl rfl⟩
  · refine ⟨_, plays_mixVoices s.activeVoices s (List.replicate n ⟨0, 0⟩) v, ?_⟩
    rcases generate_cases n s pos with ⟨-, e⟩ | ⟨u, -, free, -, -, e⟩ <;> rw [e]
    · exact .inl rfl
    · by_cases latched : v = u
      · subst latched
        exact .inr ⟨State.voice_setVoice_same .., free, rfl⟩
      · exact .inl (State.voice_setVoice_ne _ _ latched)

/-- Settles O39: the engine keeps pending flags and raises enabled ones only (`Plays`), and the arbiter clears the
flag of the voice it latches. -/
theorem interruptNeverLostAndOnlyEnabledRaised : Obligations.InterruptNeverLostAndOnlyEnabledRaised := by
  unfold Obligations.InterruptNeverLostAndOnlyEnabledRaised
  intro n s
  refine ⟨generate n s, rfl, fun v => ?_⟩
  obtain ⟨w, plays, played | ⟨cleared, free, latched⟩⟩ := generate_plays_or_latches n s v
  · rw [played]
    exact ⟨fun pending => .inl (plays.pending pending),
      fun clear raised => (plays.raised raised).resolve_left (ne_true_of_eq_false clear)⟩
  · rw [cleared]
    exact ⟨fun _ => .inr ⟨free, latched⟩, fun _ raised => absurd raised (ne_true_of_eq_false (clearIrq_irq w))⟩

end Sys2Proof.Machine
end

section
/-! PROOFS. The interrupt line and its notifications (O35, spec/60_exceptions.md R327): the line follows the vector, so
only the arbiter's latch and the read of IRQV move it, and each sends the new level. -/

namespace Sys2Proof.Machine

/-- If the line is at another level in `t` than in `s`, the outputs from `s` to `t` hold the new level. -/
def Announced (s t : State) : Prop :=
  t.irqLine ≠ s.irqLine → ∃ new, t.trace = s.trace ++ new ∧ .irqLine t.irqLine ∈ new

theorem announced_of_irqVector_eq {s t : State} (same : t.irqVector = s.irqVector) : Announced s t :=
  fun changed => absurd (by rw [State.irqLine, State.irqLine, same]) changed

theorem announced_of_trace {s t : State} {level : Bool} (line : t.irqLine = level)
    (sent : s.trace ++ [.irqLine level] <+: t.trace) : Announced s t := by
  obtain ⟨later, trace⟩ := sent
  refine fun _ => ⟨.irqLine level :: later, ?_, ?_⟩
  · rw [← trace, List.append_assoc, List.singleton_append]
  · rw [line]
    exact List.mem_cons_self

/-- A later output takes back no notification. -/
theorem Announced.emit {s t : State} (announced : Announced s t) (e : Output) : Announced s (t.emit e) := by
  intro changed
  obtain ⟨new, trace, sent⟩ := announced changed
  exact ⟨new ++ [e], by rw [State.emit_trace, trace, List.append_assoc], List.mem_append_left _ sent⟩

theorem readReg_announced (r : Reg) (s : State) : Announced s (readReg r s).2 := by
  by_cases irqv : r = .irqv
  · subst irqv
    have deasserted : (readReg .irqv s).2.irqLine = false := by
      rw [State.irqLine, readReg_irqVector, if_pos rfl]
      rfl
    exact announced_of_trace deasserted List.prefix_rfl
  · exact announced_of_irqVector_eq ((readReg_irqVector r s).trans (if_neg irqv))

theorem bus8Read_announced (a : Nat) (s : State) : Announced s (bus8Read a s).2 := by
  rcases bus8Read_cases a s with ⟨-, e⟩ | ⟨-, e⟩ <;> rw [e]
  · exact readReg_announced (s.regNow (busReg a)) s
  · exact announced_of_irqVector_eq rfl

theorem bus16Read_announced (off : Nat) (s : State) : Announced s (bus16Read off s).2 := by
  rcases bus16Read_cases off s with ⟨-, e⟩ | ⟨l, -, e⟩ <;> rw [e]
  · exact announced_of_irqVector_eq rfl
  · exact readReg_announced _ s

theorem generate_announced (n : Nat) (s : State) : Announced s (generate n s) := by
  rcases Nat.eq_zero_or_pos n with rfl | pos
  · exact announced_of_irqVector_eq rfl
  · rcases generate_cases n s pos with ⟨-, e⟩ | ⟨v, -, -, -, -, e⟩ <;> rw [e]
    · exact announced_of_irqVector_eq rfl
    · have asserted : (!(v.setWidth 8).getLsbD 7) = true := by rw [setWidth8_bit7 v, Bool.not_false]
      exact announced_of_trace asserted (List.prefix_append _ _)

/-- Settles O35, operation by operation. -/
theorem lineChangesAreNotified : Obligations.LineChangesAreNotified := by
  unfold Obligations.LineChangesAreNotified
  intro i s t h changed
  cases completes_of_exec h with
  | write g reg d => exact .inr (announced_of_irqVector_eq (writeReg_irqVector _ d s) changed)
  | read g reg => exact .inr ((readReg_announced _ s).emit _ changed)
  | generate n => exact .inr (generate_announced n s changed)
  | bankW voice value => exact .inr (announced_of_irqVector_eq rfl changed)
  | bus8Wb a b => exact .inr (announced_of_irqVector_eq (bus8Write_irqVector a b s) changed)
  | bus8Rb a => exact .inr ((bus8Read_announced a s).emit _ changed)
  | bus16W off data lanes => exact .inr (announced_of_irqVector_eq (bus16Write_irqVector off data lanes s) changed)
  | bus16R off => exact .inr ((bus16Read_announced off s).emit _ changed)
  | construct p => exact .inl ⟨p, rfl⟩

end Sys2Proof.Machine
end

section
/-! PROOFS. A chip in its reset state (O29, O30, spec/70_reset_and_hazards.md R350 to R352): what a construction leaves,
the control word of a fresh voice field by field, and the first byte accesses over cleared latches. -/

namespace Sys2Proof.Machine

/-! ## Construction (R350) -/

/-- Settles O29: the chip's registers by the laws of `construct`, the voices by `construct_voice`. -/
theorem constructionLeavesResetState : Obligations.ConstructionLeavesResetState := by
  unfold Obligations.ConstructionLeavesResetState
  intro p s
  exact ⟨construct p s, exec_of_completes (.construct p), construct_params s p, construct_activeVoiceCount s p,
    construct_currentPage s p, construct_irqVector s p, construct_mode s p, construct_wst s p, construct_wend s p,
    construct_lrend s p, construct_writeLatch s p, construct_readLatch s p, construct_trace s p, construct_voice s p⟩

/-! ## The chip at rest (R351, R352) -/

/-- What State.reset and every construction have in common, as far as R351 and R352 depend on it. -/
structure AtRest (t : State) : Prop where
  voice (v : VoiceIx) : t.voice v = Voice.fresh
  page : t.currentPage = 0
  vector : t.irqVector = 0x80
  writeLatch : t.writeLatch = 0
  readLatch : t.readLatch = 0

theorem atRest_fresh (p : Params) : AtRest (State.fresh p) :=
  ⟨State.voice_fresh p, rfl, rfl, rfl, rfl⟩

theorem atRest_construct (p : Params) (s : State) : AtRest (construct p s) :=
  ⟨construct_voice s p, construct_currentPage s p, construct_irqVector s p, construct_writeLatch s p,
    construct_readLatch s p⟩

theorem atRest_of_exec_construct {p : Params} {s t : State} (h : exec (.construct p) s = .next t) : AtRest t := by
  rw [exec_of_completes (.construct p)] at h
  cases h
  exact atRest_construct p s

/-- The control word 0x0003 field by field (R34, R57): both stop bits and nothing else. -/
theorem fresh_controlFields :
    Voice.fresh.stop0 = true ∧ Voice.fresh.stop1 = true ∧ Voice.fresh.control = 0x0003
      ∧ Voice.fresh.playState = .stopped ∧ Voice.fresh.dir = false ∧ Voice.fresh.loopMode = .none
      ∧ Voice.fresh.irqe = false ∧ Voice.fresh.irq = false ∧ Voice.fresh.bank = 0 ∧ Voice.fresh.cmpd = false
      ∧ Voice.fresh.lp3 = false ∧ Voice.fresh.lp4 = false := by
  decide

/-! ## First byte accesses over cleared latches (R352) -/

theorem bus8Read_of_drained {t : State} (drained : t.readLatch = 0) {a : Nat} (lane : a % 4 ≠ 0) :
    bus8Read a t = (0, t) := by
  have unchanged : (bus8Read a t).2 = t := (bus8Read_state a t).trans (if_neg lane)
  have byte : (bus8Read a t).1 = 0 := by
    rw [bus8Read_byte, unchanged, drained]
    simp
  exact Prod.ext byte unchanged

/-- The last lane over a cleared latch holds the byte itself. -/
theorem latchByte_zero_last (b : Byte) : latchByte 0 3 b = BitVec.ofNat 32 b.toNat := by
  simp [latchByte, laneShift]

theorem ofNat_registerOfAddress (a : Nat) : BitVec.ofNat 4 (a % 64 / 4) = BitVec.ofNat 4 (a / 4) := by
  apply BitVec.eq_of_toNat_eq
  rw [BitVec.toNat_ofNat, BitVec.toNat_ofNat]
  omega

/-- The commit finds no byte but its own, and clears a latch that is clear already. -/
theorem bus8Write_of_cleared {t : State} (cleared : t.writeLatch = 0) {a : Nat} (lane : a % 4 = 3) (b : Byte) :
    bus8Write a b t = regWrite (BitVec.ofNat 4 (a / 4)) (BitVec.ofNat 32 b.toNat) t := by
  have same : { t with writeLatch := 0 } = t := by rw [← cleared]
  rw [bus8Write_commits lane, cleared, (busLane_eq_iff a 3).mpr lane, latchByte_zero_last, ofNat_registerOfAddress,
    ← regWrite_withLatch, same]

/-- Settles O30: both kinds of state are at rest, and the rest follows from that alone. -/
theorem resetStopsEveryVoice : Obligations.ResetStopsEveryVoice := by
  unfold Obligations.ResetStopsEveryVoice
  intro t origin
  have rest : AtRest t := by
    rcases origin with rfl | ⟨p, s, built⟩
    · exact atRest_fresh Params.standard
    · exact atRest_of_exec_construct built
  refine ⟨fun v => ?_, ?_, ?_, ?_, ?_, rest.writeLatch, rest.readLatch,
    fun variant => ⟨fun a lane => ?_, fun a b lane => ?_⟩⟩
  · rw [rest.voice v]
    exact fresh_controlFields
  · rw [State.sel, rest.page]
    rfl
  · rw [State.groupBits, rest.page]
    rfl
  · rw [rest.vector]
    rfl
  · rw [State.irqLine, rest.vector]
    rfl
  · rw [exec_of_completes (.bus8Rb a variant), bus8Read_of_drained rest.readLatch lane]
    rfl
  · rw [exec_of_completes (.bus8Wb a b variant), bus8Write_of_cleared rest.writeLatch lane]

end Sys2Proof.Machine
end
